-- ==== Sys2Proof/Word.lean ====
section
/-! DEFINITION. The unsigned word types of the core (00_scope.md R6, R9): every value the spec adds, shifts or masks
is one of these. `a +32 b` and `a +64 b` of R9 are `+` on them (addition modulo 2^32 and 2^64), `^` is `^^^`, and
`<<`, `>>` are `<<<`, `>>>` (logical shifts that fill with zeros). -/

namespace Sys2Proof

/-- `u8` of R9. -/
abbrev Byte := BitVec 8

/-- `u32` of R9: one word of the working state, of a key, of a nonce or of a keystream block, and one bus register. -/
abbrev Word := BitVec 32

/-- `u64` of R9: the logical block counter and its start value. -/
abbrev Word64 := BitVec 64

end Sys2Proof
end

