-- ==== Sys2Proof/Config.lean ====
section
/-! DEFINITION. What is fixed for a realization and not for the architecture (00_scope.md R7). `BASE` is a plain
parameter field of `State` (`window`, log entry 2), `N_INST` is the length of the list of instances of
Machine/System.lean; the duration of a command stands here. -/

namespace Sys2Proof

/-- The size of the register window in bytes (20_memory.md R38). -/
def Config.windowBytes : Nat := 256

/-- `LAT_CMD`, the time a command takes (00_scope.md R7): finite (it is a `Nat`) and otherwise unspecified, so it has no
body. 70_reset_and_hazards.md R145: no rule of the spec depends on it, so no definition of the model reads it.
DEDUCED, safe (log entry 11). -/
opaque Config.latCmd : Nat

end Sys2Proof
end

