-- ==== Sys2Proof/Syntax.lean ====
section
/-! DEFINITION. The commands of the core, one constructor per row of spec/opcode_table.json (30_encoding.md R61). -/

namespace Sys2Proof

/-- A command of the core. INIT takes its operands from the staging registers and NEXTBLK has none; the only operand
in a command word is the data byte of XOR (30_encoding.md R60). -/
inductive Instr where
  /-- `INIT`: build the cipher state from the staging registers (40_init.md R72). -/
  | init
  /-- `NEXTBLK`: generate the next keystream block (41_block_transform.md R95). -/
  | nextblk
  /-- `XOR din`: combine one byte with the next keystream byte (42_stream_xor.md R102). -/
  | xor (din : Byte)
deriving DecidableEq, Repr

end Sys2Proof
end

