-- ==== Sys2Proof/WellFormed.lean ====
section
/-! DEFINITION. The fields of a command word and which of them make a command (30_encoding.md R59, R63). A term of
`Instr` cannot be ill-formed (its one operand is a byte by type); the raw fields can, and the checks are on them. -/

namespace Sys2Proof

/-- The fields `OP`, `DIN` and `RSV` of a command word (30_encoding.md R59). -/
structure CommandFields where
  /-- bits 7:0, the operation -/
  op : Byte
  /-- bits 15:8, the data byte -/
  din : Byte
  /-- bits 31:16, reserved, must be 0 -/
  rsv : BitVec 16
deriving DecidableEq, Repr

/-- `OP` is 0x01, 0x02 or 0x03; 0x00 and 0x04..0xFF are illegal with any other bits (30_encoding.md R63). -/
def CommandFields.opKnown (f : CommandFields) : Bool :=
  f.op == 0x01#8 || f.op == 0x02#8 || f.op == 0x03#8

/-- `RSV` must be 0 (30_encoding.md R59). -/
def CommandFields.rsvZero (f : CommandFields) : Bool :=
  f.rsv == 0#16

/-- `DIN` must be 0 for INIT and NEXTBLK and is any byte for XOR (30_encoding.md R59). -/
def CommandFields.dinAllowed (f : CommandFields) : Bool :=
  f.op == 0x03#8 || f.din == 0#8

/-- The fields of a legal command word (30_encoding.md R63). -/
def CommandFields.wf (f : CommandFields) : Bool :=
  f.opKnown && f.rsvZero && f.dinAllowed

/-- The fields of a command, from the "Encoding" lines of R72, R95 and R102. -/
def Instr.fields : Instr → CommandFields
  | .init => ⟨0x01#8, 0#8, 0#16⟩
  | .nextblk => ⟨0x02#8, 0#8, 0#16⟩
  | .xor din => ⟨0x03#8, din, 0#16⟩

/-- A command is well formed when its fields are those of a legal word. -/
def Instr.wf (i : Instr) : Bool :=
  i.fields.wf

end Sys2Proof
end

