-- ==== Sys2Proof/Decode.lean ====
section
/-! DEFINITION. Decoding a command word (30_encoding.md R61 to R63) and encoding a command (R65). -/

namespace Sys2Proof

/-- One row of the opcode map: a word `w` is the command of the row exactly when `w & mask = match` (30_encoding.md
R61). -/
structure OpcodeRow where
  mnemonic : String
  value : Word
  mask : Word
deriving DecidableEq, Repr

/-- `w & mask = match` (30_encoding.md R61). -/
def OpcodeRow.accepts (r : OpcodeRow) (w : Word) : Bool :=
  (w &&& r.mask) == r.value

/-- The INIT row of 30_encoding.md R61. -/
def rowInit : OpcodeRow := ⟨"INIT", 0x00000001#32, 0xFFFFFFFF#32⟩

/-- The NEXTBLK row of 30_encoding.md R61. -/
def rowNextblk : OpcodeRow := ⟨"NEXTBLK", 0x00000002#32, 0xFFFFFFFF#32⟩

/-- The XOR row of 30_encoding.md R61. -/
def rowXor : OpcodeRow := ⟨"XOR", 0x00000003#32, 0xFFFF00FF#32⟩

/-- The opcode map of 30_encoding.md R61. -/
def opcodeTable : List OpcodeRow := [rowInit, rowNextblk, rowXor]

/-- The fields of a command word (30_encoding.md R59). -/
def fieldsOf (w : Word) : CommandFields :=
  ⟨w.extractLsb' 0 8, w.extractLsb' 8 8, w.extractLsb' 16 16⟩

/-- The word that holds given fields (the drawing of 30_encoding.md R59). -/
def wordOf (f : CommandFields) : Word :=
  f.rsv ++ f.din ++ f.op

/-- Why a word is no command: the three lines of 30_encoding.md R63. The hardware reports all three as
IllegalCommand. DESIGN CHOICE, safe (log entry 17). -/
inductive DecodeError where
  /-- `OP` is 0x00 or 0x04..0xFF. -/
  | unknownOpcode
  /-- `RSV` is not 0. -/
  | reservedNotZero
  /-- `DIN` is not 0 with `OP` = INIT or NEXTBLK. -/
  | dataByteNotZero
deriving DecidableEq, Repr

/-- The reason a word that matches no row is illegal (30_encoding.md R63). -/
def decodeErrorOf (w : Word) : DecodeError :=
  if !(fieldsOf w).opKnown then .unknownOpcode
  else if !(fieldsOf w).rsvZero then .reservedNotZero
  else .dataByteNotZero

/-- The decoder, in the order of 30_encoding.md R62: total, and every other word is rejected by name. -/
def decode (w : Word) : Except DecodeError Instr :=
  if rowInit.accepts w then .ok .init
  else if rowNextblk.accepts w then .ok .nextblk
  else if rowXor.accepts w then .ok (.xor (fieldsOf w).din)
  else .error (decodeErrorOf w)

/-- The command word of a command, as the assembler writes it (30_encoding.md R65). -/
def encode : Instr → Word
  | .init => 0x00000001#32
  | .nextblk => 0x00000002#32
  | .xor din => 0x00000003#32 ||| (din.setWidth 32 <<< 8)

/-- The row of the opcode map a command belongs to. -/
def rowOf : Instr → OpcodeRow
  | .init => rowInit
  | .nextblk => rowNextblk
  | .xor _ => rowXor

/-- The command the decoder reads from a word numbered as spec/opcode_table.json numbers it; bits from `nbits` up are 0.
A command is one 32-bit bus value (30_encoding.md R58), so no byte order enters (20_memory.md R46). DEDUCED, safe (log
entry 18). -/
def decodeTableWord (nbits w : Nat) : Option Instr :=
  (decode (BitVec.ofNat 32 (w % 2 ^ nbits))).toOption

end Sys2Proof
end

