-- ==== Sys2Proof/Machine/State.lean ====
section
/-! DEFINITION. The state of one instance of the core: the elements of 10_state.md R16, and beside them the model's own
fields for the parameter `BASE`, the reset input and the host's side of the bus. All of it is plain data. -/

namespace Sys2Proof.Machine

/-- The values of the 3-bit field `ERR` (10_state.md R30, 60_exceptions.md R113): a model types it as the six codes,
since 6 and 7 are never written (93_implementation_defined.md I15). DEDUCED, safe (log entry 10). -/
inductive ErrCode where
  /-- 0: the command succeeded. -/
  | ok
  /-- 1: INIT with not all 32 key bytes supplied. -/
  | invalidKeyLength
  /-- 2: INIT with the key and not all 12 nonce bytes supplied. -/
  | invalidNonceLength
  /-- 3: a block past the 2^64-block space was requested. -/
  | counterExhausted
  /-- 4: NEXTBLK or XOR before the first successful INIT. -/
  | notInitialized
  /-- 5: the word written to CMD is no command. -/
  | illegalCommand
deriving DecidableEq, Repr

/-- The width of a read the host issues; only 32 bits is legal (20_memory.md R45). -/
inductive Width where
  | w8
  | w16
  | w32
  | w64
deriving DecidableEq, Repr

/-- The data of a write the host issues, with its width; only 32 bits is legal (20_memory.md R45). -/
inductive WriteData where
  | b8 (v : BitVec 8)
  | b16 (v : BitVec 16)
  | b32 (v : Word)
  | b64 (v : BitVec 64)
deriving DecidableEq, Repr

/-- One bus access of the host at a bus address (20_memory.md R43 to R45; `RD` and `WR` of 30_encoding.md R65). -/
inductive BusAccess where
  | read (addr : Nat) (width : Width)
  | write (addr : Nat) (data : WriteData)
deriving DecidableEq, Repr

/-- What the core's outside does to it next: a bus access of the host (10_state.md R15), or a change of the reset
input (70_reset_and_hazards.md R131, R133). -/
inductive Input where
  | access (a : BusAccess)
  /-- The reset input is asserted. -/
  | resetAssert
  /-- The reset input is released. -/
  | resetRelease
deriving DecidableEq, Repr

/-- What the host gets back from one access (20_memory.md R43 to R45). -/
inductive BusResponse where
  /-- The value of a read. -/
  | readData (v : Word)
  /-- A write was taken (or, where a rule says so, ignored). -/
  | writeDone
  /-- The bus error response: a read returns no data (20_memory.md R45). -/
  | busError
deriving DecidableEq, Repr

/-- The state of one instance. -/
structure State where
  /-- `WS[0..15]`, the working state (10_state.md R18). -/
  ws : Vector Word 16
  /-- `KEY[0..7]` (10_state.md R21). -/
  key : Vector Word 8
  /-- `NONCE[0..2]` (10_state.md R22). -/
  nonce : Vector Word 3
  /-- `KS[0..15]`, the keystream block (10_state.md R23). -/
  ks : Vector Word 16
  /-- `CURSOR`, 7 bits, typed as the range 0..64 (10_state.md R24). -/
  cursor : Fin 65
  /-- `BLKCNT`, the logical counter of the next block (10_state.md R25). -/
  blkcnt : Word64
  /-- `SCTR`, the start counter the last successful INIT latched (10_state.md R27). -/
  sctr : Word64
  /-- `VALID` (10_state.md R28). -/
  valid : Bool
  /-- `EXH`, the sticky counter-exhausted flag (10_state.md R29). -/
  exh : Bool
  /-- `ERR`, the result of the most recent command (10_state.md R30). -/
  err : ErrCode
  /-- `DOUT`, the output byte of the last successful XOR (10_state.md R32). -/
  dout : Byte
  /-- `PKEY[0..7]`, key staging (10_state.md R33). -/
  pkey : Vector Word 8
  /-- `KEYMASK`: which key words were written since reset (10_state.md R33). -/
  keymask : BitVec 8
  /-- `PNONCE[0..2]`, nonce staging (10_state.md R34). -/
  pnonce : Vector Word 3
  /-- `NONCEMASK`: which nonce words were written since reset (10_state.md R34). -/
  noncemask : BitVec 3
  /-- `PCTR`, counter staging (10_state.md R35). -/
  pctr : Word64
  /-- The parameter `BASE` (00_scope.md R7) as `BASE = 256 * window`: any 256-byte-aligned address, and no other.
  Nothing writes it. The model's own field. DESIGN CHOICE, unsafe if a claim used its reset value; none does (log
  entry 2). -/
  window : Nat
  /-- The level of the reset input (70_reset_and_hazards.md R133). The model's own field. DESIGN CHOICE, safe (log entry
  3). -/
  inReset : Bool
  /-- What the host and the reset input do next, in the order they do it (20_memory.md R50). The model's own field. DESIGN
  CHOICE, safe (log entry 1). -/
  pending : List Input
  /-- The response to the most recent access. The model's own field. DESIGN CHOICE, safe (log entry 1). -/
  response : Option BusResponse
deriving DecidableEq, Repr

/-- The reasons a step stops with a fault. There is none: a command is refused by writing `ERR` and the core goes on
(60_exceptions.md R117), a malformed access gets a bus error response and the core goes on (20_memory.md R45), and the
spec leaves no behaviour undefined (93_implementation_defined.md part 1). DEDUCED, safe (log entry 7). -/
inductive Fault where
deriving DecidableEq, Repr

/-- The reasons the model has no meaning for a command. -/
inductive Refusal where
  /-- Raised by an arm of `exec` that has no meaning yet, with the mnemonic of its row. No arm raises it: every row of
  the opcode table has its meaning. Safe: the model stops where the hardware goes on. -/
  | notModelled (mnemonic : String)
deriving DecidableEq, Repr

/-- The core right after reset: `CURSOR` is 64 and every other element of 10_state.md R16 is 0
(70_reset_and_hazards.md R131). The reset input is released, nothing is pending and nothing was answered; `BASE` is 0
here by the model's choice (DESIGN CHOICE, log entry 2). -/
def State.reset : State where
  ws := Vector.replicate 16 0#32
  key := Vector.replicate 8 0#32
  nonce := Vector.replicate 3 0#32
  ks := Vector.replicate 16 0#32
  cursor := 64
  blkcnt := 0#64
  sctr := 0#64
  valid := false
  exh := false
  err := .ok
  dout := 0#8
  pkey := Vector.replicate 8 0#32
  keymask := 0#8
  pnonce := Vector.replicate 3 0#32
  noncemask := 0#3
  pctr := 0#64
  window := 0
  inReset := false
  pending := []
  response := none

end Sys2Proof.Machine
end

