-- ==== Sys2Proof/Machine/Bits.lean ====
section
/-! DEFINITION. Bit fields, rotations and byte order (00_scope.md R8 to R11), in the one place every other definition
takes them from. -/

namespace Sys2Proof.Machine

/-- `rotl32(v, n)` of 00_scope.md R10, for 0 < n < 32: the core uses 16, 12, 8 and 7 only. -/
def rotl32 (v : Word) (n : Nat) : Word :=
  (v <<< n) ||| (v >>> (32 - n))

/-- `zext_32(v)` of 00_scope.md R9. -/
def zext32 {n : Nat} (v : BitVec n) : Word :=
  v.setWidth 32

/-- `sext_32(v)` of 00_scope.md R9, "defined for completeness": no rule uses it. -/
def sext32 {n : Nat} (v : BitVec n) : Word :=
  v.signExtend 32

/-- `le32(b0, b1, b2, b3)` of 00_scope.md R11: the first byte is the least significant. -/
def le32 (b0 b1 b2 b3 : Byte) : Word :=
  zext32 b0 ||| (zext32 b1 <<< 8) ||| (zext32 b2 <<< 16) ||| (zext32 b3 <<< 24)

/-- `v[8k+7 : 8k]`, byte `k` of a word, least significant first: the inverse of `le32` (00_scope.md R11). -/
def byteOf (v : Word) (k : Nat) : Byte :=
  v.extractLsb' (8 * k) 8

/-- `c[31:0]` of a 64-bit counter (20_memory.md R47). -/
def lo32 (c : Word64) : Word :=
  c.extractLsb' 0 32

/-- `c[63:32]` of a 64-bit counter (20_memory.md R47). -/
def hi32 (c : Word64) : Word :=
  c.extractLsb' 32 32

/-- `hi || lo` (00_scope.md R8). -/
def join64 (hi lo : Word) : Word64 :=
  hi ++ lo

/-- Word `i` of a byte sequence packed little-endian, `le32(B[4i], B[4i+1], B[4i+2], B[4i+3])` (00_scope.md R11). -/
def packWord {n : Nat} (bytes : Vector Byte (4 * n)) (i : Fin n) : Word :=
  le32 bytes[4 * i.val] bytes[4 * i.val + 1] bytes[4 * i.val + 2] bytes[4 * i.val + 3]

/-- The words a byte sequence packs into (00_scope.md R11). -/
def packWords {n : Nat} (bytes : Vector Byte (4 * n)) : Vector Word n :=
  Vector.ofFn (packWord bytes)

end Sys2Proof.Machine
end

