-- ==== Sys2Proof/Machine/Ops.lean ====
section
/-! DEFINITION. The operations over state that several meanings share: how a command ends, with success or refused, and
the named updates of the host's side. The core has no memory and no trap (20_memory.md R38, 60_exceptions.md R117):
what stands for taking an exception here is `raise`, and nothing stands for returning from one (R121). -/

namespace Sys2Proof.Machine

/-- The result of a command, a bus access or a step. -/
abbrev Result := Host.Outcome State Fault Refusal

/-- The next state of a result, where there is one. -/
def nextOf {α : Type} : Host.Outcome α Fault Refusal → Option α
  | .next s => some s
  | .fault _ => none
  | .refused _ => none

/-- One result after another: a stop ends the sequence. -/
def andThen {α β : Type} (o : Host.Outcome α Fault Refusal) (f : α → Host.Outcome β Fault Refusal) :
    Host.Outcome β Fault Refusal :=
  match o with
  | .next s => f s
  | .fault r => .fault r
  | .refused r => .refused r

/-- `ERR <- e` (10_state.md R30). -/
def State.setErr (s : State) (e : ErrCode) : State :=
  { s with err := e }

/-- `raise E(code)` (00_scope.md R12, 60_exceptions.md R117): the command ends, `ERR <- code`, and every other element
keeps its value. There is no vector, no saved program counter and no handler. -/
def raise (e : ErrCode) (s : State) : Result :=
  .next (s.setErr e)

/-- The end of a command that began in `s` (00_scope.md R13): success, with the state its rule gives and `ERR <- 0`, or
refused, with the state it began in and `ERR <- code`. -/
def finish (s : State) : Except ErrCode State → Result
  | .ok t => .next (t.setErr .ok)
  | .error e => raise e s

/-- `BASE`, the bus address of the window's offset 0x000 (00_scope.md R7). -/
def State.base (s : State) : Nat :=
  Config.windowBytes * s.window

/-- The answer the host gets to its current access. -/
def State.respond (s : State) (r : BusResponse) : State :=
  { s with response := some r }

/-- The inputs that remain once the first of them is taken. -/
def State.withPending (s : State) (p : List Input) : State :=
  { s with pending := p }

/-- Asserting the reset input sets every element of 10_state.md R16 to its reset value (70_reset_and_hazards.md R131).
The parameter `BASE` and the host's side of the bus are no elements of R16 and stay: DESIGN CHOICE, safe (log entry
9). -/
def State.assertReset (s : State) : State :=
  { State.reset with window := s.window, pending := s.pending, response := s.response, inReset := true }

/-- Releasing the reset input changes no element: the next access sees the state of 70_reset_and_hazards.md R131
(R133). -/
def State.releaseReset (s : State) : State :=
  { s with inReset := false }

end Sys2Proof.Machine
end

