-- ==== Sys2Proof/Machine/Operands.lean ====
section
/-! DEFINITION. The operands of the commands. `DIN` stands in the command itself (30_encoding.md R60); INIT reads the
staging registers, which the host writes here; XOR reads one byte of the keystream block. There are no register
specifiers, no immediates and no addressing modes (30_encoding.md R60). -/

namespace Sys2Proof.Machine

/-- The host's write of KEYWi: `PKEY[i] <- data; KEYMASK[i] <- 1` (10_state.md R33). -/
def State.stageKey (s : State) (i : Fin 8) (v : Word) : State :=
  { s with pkey := s.pkey.set i v, keymask := s.keymask ||| (1#8 <<< i.val) }

/-- The host's write of NONCEWj: `PNONCE[j] <- data; NONCEMASK[j] <- 1` (10_state.md R34). -/
def State.stageNonce (s : State) (j : Fin 3) (v : Word) : State :=
  { s with pnonce := s.pnonce.set j v, noncemask := s.noncemask ||| (1#3 <<< j.val) }

/-- The host's write of CTRW_LO: `PCTR[31:0] <- data`, the other half kept (10_state.md R35). -/
def State.stageCtrLo (s : State) (v : Word) : State :=
  { s with pctr := join64 (hi32 s.pctr) v }

/-- The host's write of CTRW_HI: `PCTR[63:32] <- data`, the other half kept (10_state.md R35). -/
def State.stageCtrHi (s : State) (v : Word) : State :=
  { s with pctr := join64 v (lo32 s.pctr) }

/-- `KSbyte(j) = KS[j div 4][8*(j mod 4)+7 : 8*(j mod 4)]` for `j` in 0..63 (10_state.md R23, 42_stream_xor.md
R103). -/
def ksByte (ks : Vector Word 16) (j : Fin 64) : Byte :=
  byteOf ks[j.val / 4] (j.val % 4)

end Sys2Proof.Machine
end

