-- ==== Sys2Proof/Machine/Flags.lean ====
section
/-! DEFINITION. The flags, the error codes and the status register. -/

namespace Sys2Proof.Machine

/-- The 3-bit code of an error (60_exceptions.md R113). -/
def ErrCode.code : ErrCode → BitVec 3
  | .ok => 0#3
  | .invalidKeyLength => 1#3
  | .invalidNonceLength => 2#3
  | .counterExhausted => 3#3
  | .notInitialized => 4#3
  | .illegalCommand => 5#3

/-- All 32 key bytes have been supplied since reset (10_state.md R33). -/
def State.keySupplied (s : State) : Bool :=
  s.keymask == 0xFF#8

/-- All 12 nonce bytes have been supplied since reset (10_state.md R34). -/
def State.nonceSupplied (s : State) : Bool :=
  s.noncemask == 0x7#3

/-- `BLKCNT = 2^64 - 1`, the last block of the counter space (41_block_transform.md R93). -/
def State.atCounterEnd (s : State) : Bool :=
  s.blkcnt == 0xFFFFFFFFFFFFFFFF#64

/-- A flag as one bit. -/
def flagBit (b : Bool) : BitVec 1 :=
  if b then 1#1 else 0#1

/-- `STATUS = VALID | (EXH << 1) | (ERR << 4) | (KEYMASK << 8) | (NONCEMASK << 16)` (10_state.md R31). -/
def State.statusWord (s : State) : Word :=
  zext32 (flagBit s.valid) ||| (zext32 (flagBit s.exh) <<< 1) ||| (zext32 s.err.code <<< 4) |||
    (zext32 s.keymask <<< 8) ||| (zext32 s.noncemask <<< 16)

end Sys2Proof.Machine
end

