-- ==== Sys2Proof/Machine/Init.lean ====
section
/-! DEFINITION. INIT (40_init.md). -/

namespace Sys2Proof.Machine

/-- The constant words, "expand 32-byte k" packed little-endian (40_init.md R73). The ASCII codes behind them
are PRESUMED, safe (log entry 16). -/
def sigma : Vector Word 4 :=
  #v[0x61707865#32, 0x3320646E#32, 0x79622D32#32, 0x6B206574#32]

/-- The working state of a key, a nonce and a 64-bit counter (the table of 40_init.md R74). -/
def workingState (k : Vector Word 8) (n : Vector Word 3) (c : Word64) : Vector Word 16 :=
  #v[sigma[0], sigma[1], sigma[2], sigma[3],
     k[0], k[1], k[2], k[3], k[4], k[5], k[6], k[7],
     lo32 c, n[0] + hi32 c, n[1], n[2]]

/-- What a successful INIT does before `ERR <- 0` (40_init.md R72). The staging registers and the masks stay (R78). -/
def State.buildCipher (s : State) : State :=
  { s with
    key := s.pkey
    nonce := s.pnonce
    sctr := s.pctr
    blkcnt := s.pctr
    ws := workingState s.pkey s.pnonce s.pctr
    ks := Vector.replicate 16 0#32
    dout := 0#8
    cursor := 64
    exh := false
    valid := true }

/-- The checks of INIT, in the order of 60_exceptions.md R119, and what it does when both pass. -/
def initResult (s : State) : Except ErrCode State :=
  if !s.keySupplied then .error .invalidKeyLength
  else if !s.nonceSupplied then .error .invalidNonceLength
  else .ok s.buildCipher

/-- INIT (40_init.md R72). -/
def execInit (s : State) : Result :=
  finish s (initResult s)

end Sys2Proof.Machine
end

