-- ==== Sys2Proof/Machine/BlockTransform.lean ====
section
/-! DEFINITION. The block transform, the counter advance and NEXTBLK (41_block_transform.md). -/

namespace Sys2Proof.Machine

/-- The scratch array `x` of the block transform (41_block_transform.md R81): it lives inside one command only and is no
state (10_state.md R36). -/
abbrev Scratch := Vector Word 16

/-- The index pattern `(a, b, c, d)` of one quarter-round. -/
structure Pattern where
  a : Fin 16
  b : Fin 16
  c : Fin 16
  d : Fin 16
deriving DecidableEq, Repr

/-- Half of one step pair of the quarter-round: `x[p] <- x[p] +32 x[q]; x[r] <- rotl32(x[r] ^ x[p], n)`
(41_block_transform.md R82). -/
def qrStep (p q r : Fin 16) (n : Nat) (x : Scratch) : Scratch :=
  let y := x.set p (x[p] + x[q])
  y.set r (rotl32 (y[r] ^^^ y[p]) n)

/-- `QR(a, b, c, d)`: four add-rotate-XOR steps in strict sequence, by 16, 12, 8 and 7 (41_block_transform.md R82). -/
def quarterRound (x : Scratch) (p : Pattern) : Scratch :=
  qrStep p.c p.d p.b 7 (qrStep p.a p.b p.d 8 (qrStep p.c p.d p.b 12 (qrStep p.a p.b p.d 16 x)))

/-- The column patterns, in the order of 41_block_transform.md R84. -/
def columnPatterns : List Pattern :=
  [⟨0, 4, 8, 12⟩, ⟨1, 5, 9, 13⟩, ⟨2, 6, 10, 14⟩, ⟨3, 7, 11, 15⟩]

/-- The diagonal patterns, in the order of 41_block_transform.md R85. -/
def diagonalPatterns : List Pattern :=
  [⟨0, 5, 10, 15⟩, ⟨1, 6, 11, 12⟩, ⟨2, 7, 8, 13⟩, ⟨3, 4, 9, 14⟩]

/-- The quarter-rounds of a list of patterns, one after another. -/
def quarterRounds (ps : List Pattern) (x : Scratch) : Scratch :=
  ps.foldl quarterRound x

/-- The column round (41_block_transform.md R84). -/
def columnRound (x : Scratch) : Scratch :=
  quarterRounds columnPatterns x

/-- The diagonal round (41_block_transform.md R85). -/
def diagonalRound (x : Scratch) : Scratch :=
  quarterRounds diagonalPatterns x

/-- A double-round: the column round, then the diagonal round (41_block_transform.md R86). -/
def doubleRound (x : Scratch) : Scratch :=
  diagonalRound (columnRound x)

/-- `n` double-rounds in sequence (41_block_transform.md R87). -/
def doubleRounds : Nat → Scratch → Scratch
  | 0, x => x
  | n + 1, x => doubleRounds n (doubleRound x)

/-- `Block(WS)`: 10 double-rounds on a copy of the working state, then the feed-forward `out[i] = x[i] +32 WS[i]`
(41_block_transform.md R89, R90). It is a function of the 16 working-state words alone (R97). -/
def block (ws : Vector Word 16) : Vector Word 16 :=
  Vector.zipWith (· + ·) (doubleRounds 10 ws) ws

/-- The two counter words after an advance: `WS[12] <- WS[12] +32 1; if WS[12] = 0: WS[13] <- WS[13] +32 1`
(41_block_transform.md R92). Word 13 wraps silently (R99). -/
def advanceWords (ws : Vector Word 16) : Vector Word 16 :=
  let y := ws.set 12 (ws[12] + 1#32)
  if y[12] = 0#32 then y.set 13 (y[13] + 1#32) else y

/-- The counter advance, normal case (41_block_transform.md R92). -/
def State.advance (s : State) : State :=
  { s with blkcnt := s.blkcnt + 1#64, ws := advanceWords s.ws }

/-- The end of the counter space: nothing advances and `EXH <- 1` (41_block_transform.md R93). -/
def State.exhaust (s : State) : State :=
  { s with exh := true }

/-- `KS[i] <- out[i]` for all i = 0..15 (41_block_transform.md R90). -/
def State.writeBlock (s : State) (out : Vector Word 16) : State :=
  { s with ks := out }

/-- `GenBlock`, the procedure NEXTBLK and XOR both use (41_block_transform.md R94). -/
def genBlock (s : State) : Except ErrCode State :=
  if s.exh then .error .counterExhausted
  else if s.atCounterEnd then .ok (s.writeBlock (block s.ws)).exhaust
  else .ok (s.writeBlock (block s.ws)).advance

/-- The checks of NEXTBLK and what it does before `ERR <- 0` (41_block_transform.md R95). -/
def nextblkResult (s : State) : Except ErrCode State :=
  if !s.valid then .error .notInitialized
  else genBlock s

/-- NEXTBLK (41_block_transform.md R95). It neither reads nor writes `CURSOR` or `DOUT` (R96). -/
def execNextblk (s : State) : Result :=
  finish s (nextblkResult s)

end Sys2Proof.Machine
end

