-- ==== Sys2Proof/Machine/StreamXor.lean ====
section
/-! DEFINITION. XOR, one byte position of the source's `applyKeystream` (42_stream_xor.md). -/

namespace Sys2Proof.Machine

/-- `DOUT <- DIN ^ KSbyte(p); CURSOR <- p + 1`, for a position `p` in 0..63 (42_stream_xor.md R102, R103). -/
def State.consume (s : State) (din : Byte) (p : Fin 64) : State :=
  { s with dout := din ^^^ ksByte s.ks p, cursor := p.succ }

/-- The checks of XOR and what it does before `ERR <- 0` (42_stream_xor.md R102): with `CURSOR` = 64 a block is
generated first and the cursor starts again at 0, so the byte used is byte 0 of that block. -/
def xorResult (din : Byte) (s : State) : Except ErrCode State :=
  if !s.valid then .error .notInitialized
  else if h : s.cursor.val = 64 then
    match genBlock s with
    | .error e => .error e
    | .ok t => .ok (t.consume din 0)
  else .ok (s.consume din ⟨s.cursor.val, by omega⟩)

/-- XOR (42_stream_xor.md R102). -/
def execXor (din : Byte) (s : State) : Result :=
  finish s (xorResult din s)

end Sys2Proof.Machine
end

