-- ==== Sys2Proof/Machine/Dispatch.lean ====
section
/-! DEFINITION. The meaning of every command, one arm per constructor of `Instr`. -/

namespace Sys2Proof.Machine

def exec (i : Instr) (s : State) : Host.Outcome State Fault Refusal :=
  match i with
  | .init => Sys2Proof.Machine.execInit s
  | .nextblk => Sys2Proof.Machine.execNextblk s
  | .xor din => Sys2Proof.Machine.execXor din s

end Sys2Proof.Machine
end

