-- ==== Sys2Proof/Machine/Bus.lean ====
section
/-! DEFINITION. The register window and the host's accesses to it (20_memory.md), the write of the command register
(30_encoding.md R62), and the reset input (70_reset_and_hazards.md). -/

namespace Sys2Proof.Machine

/-- The registers of the map of 20_memory.md R39. -/
inductive Reg where
  | keyw (i : Fin 8)
  | noncew (j : Fin 3)
  | ctrwLo
  | ctrwHi
  | cmd
  | status
  | dout
  | cursor
  | blkcntLo
  | blkcntHi
  | sctrLo
  | sctrHi
  | ws12
  | ws13
  | ks (k : Fin 16)
deriving DecidableEq, Repr

/-- The offset of a register (20_memory.md R39). -/
def Reg.offset : Reg → Nat
  | .keyw i => 0x000 + 4 * i.val
  | .noncew j => 0x020 + 4 * j.val
  | .ctrwLo => 0x02C
  | .ctrwHi => 0x030
  | .cmd => 0x034
  | .status => 0x038
  | .dout => 0x03C
  | .cursor => 0x040
  | .blkcntLo => 0x044
  | .blkcntHi => 0x048
  | .sctrLo => 0x04C
  | .sctrHi => 0x050
  | .ws12 => 0x054
  | .ws13 => 0x058
  | .ks k => 0x080 + 4 * k.val

/-- The register at a 4-byte-aligned offset of the window; `none` is a reserved offset (20_memory.md R39, R40). -/
def regAt (off : Nat) : Option Reg :=
  if h : off < 0x020 then some (.keyw ⟨off / 4, by omega⟩)
  else if h : off < 0x02C then some (.noncew ⟨(off - 0x020) / 4, by omega⟩)
  else if off = 0x02C then some .ctrwLo
  else if off = 0x030 then some .ctrwHi
  else if off = 0x034 then some .cmd
  else if off = 0x038 then some .status
  else if off = 0x03C then some .dout
  else if off = 0x040 then some .cursor
  else if off = 0x044 then some .blkcntLo
  else if off = 0x048 then some .blkcntHi
  else if off = 0x04C then some .sctrLo
  else if off = 0x050 then some .sctrHi
  else if off = 0x054 then some .ws12
  else if off = 0x058 then some .ws13
  else if h : 0x080 ≤ off ∧ off < 0x0C0 then some (.ks ⟨(off - 0x080) / 4, by omega⟩)
  else none

/-- The value a read of a register returns (20_memory.md R39, R43): write-only and command registers read 0 (R41). -/
def readReg (r : Reg) (s : State) : Word :=
  match r with
  | .keyw _ => 0#32
  | .noncew j => s.pnonce[j]
  | .ctrwLo => lo32 s.pctr
  | .ctrwHi => hi32 s.pctr
  | .cmd => 0#32
  | .status => s.statusWord
  | .dout => zext32 s.dout
  | .cursor => BitVec.ofNat 32 s.cursor.val
  | .blkcntLo => lo32 s.blkcnt
  | .blkcntHi => hi32 s.blkcnt
  | .sctrLo => lo32 s.sctr
  | .sctrHi => hi32 s.sctr
  | .ws12 => s.ws[12]
  | .ws13 => s.ws[13]
  | .ks k => s.ks[k]

/-- The value a read at an offset returns: a reserved offset reads 0 (20_memory.md R40). -/
def readOffset (off : Nat) (s : State) : Word :=
  match regAt off with
  | some r => readReg r s
  | none => 0#32

/-- The write of a command word to CMD: it is decoded once and the command executes to completion; a word that matches
no row raises IllegalCommand before any other check (30_encoding.md R62, 60_exceptions.md R114). -/
def writeCmd (w : Word) (s : State) : Result :=
  match decode w with
  | .ok i => exec i s
  | .error _ => raise .illegalCommand s

/-- What a write to a register does (20_memory.md R44): writes to read-only registers are ignored (R41). -/
def writeReg (r : Reg) (v : Word) (s : State) : Result :=
  match r with
  | .keyw i => .next (s.stageKey i v)
  | .noncew j => .next (s.stageNonce j v)
  | .ctrwLo => .next (s.stageCtrLo v)
  | .ctrwHi => .next (s.stageCtrHi v)
  | .cmd => writeCmd v s
  | .status => .next s
  | .dout => .next s
  | .cursor => .next s
  | .blkcntLo => .next s
  | .blkcntHi => .next s
  | .sctrLo => .next s
  | .sctrHi => .next s
  | .ws12 => .next s
  | .ws13 => .next s
  | .ks _ => .next s

/-- What a write at an offset does: a write to a reserved offset is ignored (20_memory.md R40). -/
def writeOffset (off : Nat) (v : Word) (s : State) : Result :=
  match regAt off with
  | some r => writeReg r v s
  | none => .next s

/-- The offset a bus address names in the window, where the access may be made there: the address is a multiple of 4
and lies in the window (20_memory.md R45). -/
def offsetOf (s : State) (addr : Nat) : Option Nat :=
  if s.base ≤ addr ∧ addr < s.base + Config.windowBytes ∧ addr % 4 = 0 then some (addr - s.base) else none

/-- A 32-bit read (20_memory.md R43): it changes nothing but what the host is answered. While the reset input is
asserted it returns 0 (70_reset_and_hazards.md R133). -/
def read32 (off : Nat) (s : State) : Result :=
  .next (s.respond (.readData (if s.inReset then 0#32 else readOffset off s)))

/-- A 32-bit write (20_memory.md R44). While the reset input is asserted it is ignored (70_reset_and_hazards.md
R133). DEDUCED: an ignored write is answered as one that was taken, safe (log entry 19). -/
def write32 (off : Nat) (v : Word) (s : State) : Result :=
  if s.inReset then .next (s.respond .writeDone) else writeOffset off v (s.respond .writeDone)

/-- The bus error response: no state changes and a read returns no data (20_memory.md R45, 60_exceptions.md R122). -/
def busError (s : State) : Result :=
  .next (s.respond .busError)

/-- One access of the host, whole (20_memory.md R43 to R45): any width but 32 bits, a misaligned address and an address
outside the window get the bus error response. The whole of a command belongs to the write of CMD that holds it
(70_reset_and_hazards.md R139). DESIGN CHOICE: a malformed access gets that response while reset is asserted too, unsafe
for a claim about that answer only (log entry 5). Addresses are numbers without a width: DESIGN CHOICE, safe (log entry
14). -/
def access (a : BusAccess) (s : State) : Result :=
  match a with
  | .read addr .w32 =>
    match offsetOf s addr with
    | some off => read32 off s
    | none => busError s
  | .read _ .w8 => busError s
  | .read _ .w16 => busError s
  | .read _ .w64 => busError s
  | .write addr (.b32 v) =>
    match offsetOf s addr with
    | some off => write32 off v s
    | none => busError s
  | .write _ (.b8 _) => busError s
  | .write _ (.b16 _) => busError s
  | .write _ (.b64 _) => busError s

/-- One input of the core's outside. DESIGN CHOICE: the reset input changes between two accesses, not inside a command,
safe for every element of the state (log entry 8). -/
def takeInput (e : Input) (s : State) : Result :=
  match e with
  | .access a => access a s
  | .resetAssert => .next s.assertReset
  | .resetRelease => .next s.releaseReset

/-- The next input is taken and dealt with whole before the one after it (20_memory.md R50). With none the core does
nothing: it never steps on its own (10_state.md R15) and holds its state (60_exceptions.md R129). DEDUCED, safe (log
entry 6). There is one host: DEDUCED, unsafe for a system with two (log entry 12). -/
def serveNext (s : State) : Result :=
  match s.pending with
  | [] => .next s
  | e :: rest => takeInput e (s.withPending rest)

/-- The host's write of a command word to CMD stands first among the inputs, and the reset input is released, so that
the write is taken. -/
def State.withCommand (s : State) (w : Word) : State :=
  { s with pending := .access (.write (s.base + Reg.cmd.offset) (.b32 w)) :: s.pending, inReset := false }

end Sys2Proof.Machine
end

