-- ==== Sys2Proof/Machine/Step.lean ====
section
/-! DEFINITION. The step function of the core and of its host. -/

namespace Sys2Proof.Machine

/-- One step: the next bus access of the host, with the whole of the command it may hold, or the next change of the
reset input (10_state.md R15, 20_memory.md R50, 70_reset_and_hazards.md R139). -/
def step (s : State) : Host.Outcome State Fault Refusal :=
  serveNext s

/-- The state whose very next step decodes and runs the command word `w`. The core fetches no instructions (10_state.md
R17): a command comes from the host as a write of CMD, and that write is put first among the host's accesses.
DEDUCED, safe (log entry 4). -/
def State.withFetchWord (s : State) (nbits w : Nat) : State :=
  s.withCommand (BitVec.ofNat 32 (w % 2 ^ nbits))

end Sys2Proof.Machine
end

