-- ==== Sys2Proof/Machine/HostProgram.lean ====
section
/-! DEFINITION. What a host does with one core: sequences of accesses and commands (20_memory.md R50), the
pseudo-instructions of 30_encoding.md R66, and the loop that realizes the source's `applyKeystream` (42_stream_xor.md
R106). -/

namespace Sys2Proof.Machine

/-- `WR <reg>, <imm32>` (30_encoding.md R65). -/
def wr (base : Nat) (r : Reg) (v : Word) : BusAccess :=
  .write (base + r.offset) (.b32 v)

/-- `RD <reg>` (30_encoding.md R65). -/
def rd (base : Nat) (r : Reg) : BusAccess :=
  .read (base + r.offset) .w32

/-- A command as the write of CMD that issues it (30_encoding.md R65). -/
def wrCmd (base : Nat) (i : Instr) : BusAccess :=
  wr base .cmd (encode i)

/-- A line of a program in the assembly syntax of 30_encoding.md R65: an access by register name, or a command. -/
inductive Line where
  /-- `WR <reg>, <imm32>` -/
  | wr (r : Reg) (v : Word)
  /-- `RD <reg>` -/
  | rd (r : Reg)
  /-- `INIT`, `NEXTBLK` or `XOR <imm8>` -/
  | cmd (i : Instr)
deriving DecidableEq, Repr

/-- The one access a line stands for (30_encoding.md R65). -/
def Line.access (base : Nat) : Line → BusAccess
  | .wr r v => Machine.wr base r v
  | .rd r => Machine.rd base r
  | .cmd i => wrCmd base i

/-- `LOADKEY K[0..31]` (30_encoding.md R66). -/
def loadKey (base : Nat) (k : Vector Byte (4 * 8)) : List BusAccess :=
  (List.finRange 8).map fun i => wr base (.keyw i) (packWord k i)

/-- `LOADNONCE N[0..11]` (30_encoding.md R66). -/
def loadNonce (base : Nat) (n : Vector Byte (4 * 3)) : List BusAccess :=
  (List.finRange 3).map fun j => wr base (.noncew j) (packWord n j)

/-- `LOADCTR c` (30_encoding.md R66). -/
def loadCtr (base : Nat) (c : Word64) : List BusAccess :=
  [wr base .ctrwLo (lo32 c), wr base .ctrwHi (hi32 c)]

/-- `SETUP K, N, c`, the source's `initialize(key, nonce, startCounter)` (30_encoding.md R66). -/
def setup (base : Nat) (k : Vector Byte (4 * 8)) (n : Vector Byte (4 * 3)) (c : Word64) : List BusAccess :=
  loadKey base k ++ loadNonce base n ++ loadCtr base c ++ [wrCmd base .init]

/-- `APPLY B[0..n-1]`: for each byte in order `XOR B[i]; RD DOUT`; a zero-length buffer expands to nothing
(30_encoding.md R66). -/
def apply (base : Nat) (buffer : List Byte) : List BusAccess :=
  buffer.flatMap fun b => [wrCmd base (.xor b), rd base .dout]

/-- `READKS` (30_encoding.md R66). -/
def readKs (base : Nat) : List BusAccess :=
  (List.finRange 16).map fun k => rd base (.ks k)

/-- Accesses in issue order, each complete before the next begins (20_memory.md R50). -/
def accesses : List BusAccess → State → Result
  | [], s => .next s
  | a :: rest, s => andThen (access a s) (accesses rest)

/-- Commands in issue order. -/
def commands : List Instr → State → Result
  | [], s => .next s
  | i :: rest, s => andThen (exec i s) (commands rest)

/-- The byte a host takes from its last read: the low byte of the value read (DOUT reads as `zext_32(DOUT)`,
20_memory.md R39). The byte `d` stands where the last access was no read that returned data. -/
def State.lastReadByte (s : State) (d : Byte) : Byte :=
  match s.response with
  | some (.readData v) => byteOf v 0
  | some .writeDone => d
  | some .busError => d
  | none => d

/-- The host's loop over a buffer (42_stream_xor.md R106): it writes `XOR buffer[i]`, reads DOUT and stores the value
read into `buffer[i]`; if an XOR is refused it stops there, with the refused byte and those after it as they were.
Answers the core's state and the buffer. DEDUCED: the host learns of the refusal from `ERR`, safe (log entry 15). -/
def applyKeystream : List Byte → State → Host.Outcome (State × List Byte) Fault Refusal
  | [], s => .next (s, [])
  | b :: rest, s =>
    andThen (access (wrCmd s.base (.xor b)) s) fun s1 =>
      if s1.err = .ok then
        andThen (access (rd s1.base .dout) s1) fun s2 =>
          andThen (applyKeystream rest s2) fun r => .next (r.1, s2.lastReadByte b :: r.2)
      else .next (s1, b :: rest)

/-- The same loop over the parts of a buffer, one after another (42_stream_xor.md R108). -/
def applyChunks : List (List Byte) → State → Host.Outcome (State × List Byte) Fault Refusal
  | [], s => .next (s, [])
  | chunk :: rest, s =>
    andThen (applyKeystream chunk s) fun r =>
      andThen (applyChunks rest r.1) fun q => .next (q.1, r.2 ++ q.2)

end Sys2Proof.Machine
end

