-- ==== Sys2Proof/Machine/System.lean ====
section
/-! DEFINITION. Several instances on one bus (60_exceptions.md R127), told apart by their `BASE` alone. `N_INST`
(00_scope.md R7) is the length of the list. DESIGN CHOICE, safe for the instances (log entry 13). -/

namespace Sys2Proof.Machine

/-- The instances on one bus. -/
structure System where
  cores : List State
deriving DecidableEq, Repr

/-- The bus address of an access. -/
def BusAccess.addr : BusAccess → Nat
  | .read addr _ => addr
  | .write addr _ => addr

/-- An access is answered by the instance whose window holds its address (20_memory.md R38). -/
def State.claims (s : State) (a : BusAccess) : Bool :=
  decide (s.base ≤ a.addr ∧ a.addr < s.base + Config.windowBytes)

/-- Each instance sits at its own `BASE` (60_exceptions.md R127). -/
def System.wf (y : System) : Bool :=
  decide (y.cores.map (·.window)).Nodup

/-- An access on the list of instances: those whose window does not hold the address are not reached. -/
def accessCores (a : BusAccess) : List State → Host.Outcome (List State) Fault Refusal
  | [] => .next []
  | s :: rest =>
    andThen (if s.claims a then access a s else .next s) fun t =>
      andThen (accessCores a rest) fun ts => .next (t :: ts)

/-- One bus access of the host to a bus with several instances. -/
def System.access (a : BusAccess) (y : System) : Host.Outcome System Fault Refusal :=
  andThen (accessCores a y.cores) fun cs => .next ⟨cs⟩

/-- What the host is answered: the response of the instance whose window holds the address, and a bus error where
there is none (20_memory.md R45; DESIGN CHOICE, unsafe for a claim about that answer only, log entry 13). To be read
after the access. -/
def System.response (a : BusAccess) (y : System) : Option BusResponse :=
  match y.cores.find? (·.claims a) with
  | some s => s.response
  | none => some .busError

/-- The reset input of one instance is asserted: the others are not reached (60_exceptions.md R127). -/
def System.assertReset (j : Nat) (y : System) : System :=
  ⟨y.cores.modify j State.assertReset⟩

/-- The reset input of one instance is released. -/
def System.releaseReset (j : Nat) (y : System) : System :=
  ⟨y.cores.modify j State.releaseReset⟩

end Sys2Proof.Machine
end

