-- ==== Sys2Proof/Safety.lean ====
section
/-! DEFINITION. The terms claims are stated in: what a reachable state looks like, when a command generates a block, and
the one outcome a claim about keystream must exclude. -/

namespace Sys2Proof.Safety

open Sys2Proof.Machine

/-- The last command was refused because the counter space is used up: the bad outcome that a claim "the keystream is
produced" must exclude (93_implementation_defined.md I2). The state itself is defined and the core goes on. -/
def exhaustionReported (s : State) : Bool :=
  s.err == .counterExhausted

/-- INIT would succeed: all key and nonce words have been supplied since reset (40_init.md R76). -/
def readyForInit (s : State) : Prop :=
  s.keymask = 0xFF#8 ∧ s.noncemask = 0x7#3

/-- A block can be generated: there is a cipher state and its counter space is not used up (41_block_transform.md R94,
R95). -/
def readyForBlock (s : State) : Prop :=
  s.valid = true ∧ s.exh = false

/-- The command, issued in this state, generates a block (41_block_transform.md R94): a NEXTBLK that is not refused, or
an XOR that finds `CURSOR` = 64 and is not refused. -/
def generates (i : Instr) (s : State) : Bool :=
  s.valid && !s.exh &&
    match i with
    | .init => false
    | .nextblk => true
    | .xor _ => s.cursor.val == 64

/-- How many of the commands, issued in order, generate a block. -/
def generations : List Instr → State → Nat
  | [], _ => 0
  | i :: rest, s =>
    (generates i s).toNat +
      match exec i s with
      | .next t => generations rest t
      | .fault _ => 0
      | .refused _ => 0

/-- The number of blocks generated since INIT: `BLKCNT - SCTR`, plus one after the exhausting block (10_state.md
R25). -/
def blocksSinceInit (s : State) : Nat :=
  (s.blkcnt.toNat - s.sctr.toNat) + s.exh.toNat

/-- The logical counter of the block that stands in `KS`, once one has been generated: the one before `BLKCNT`, or
`BLKCNT` itself after the exhausting block (41_block_transform.md R92, R93). -/
def lastBlockCounter (s : State) : Word64 :=
  if s.exh then s.blkcnt else s.blkcnt - 1#64

/-- A 32-bit read at an offset of the window answers a value and changes nothing else. -/
def readsAs (s : State) (off : Nat) (v : Word) : Prop :=
  access (.read (s.base + off) .w32) s = .next { s with response := some (.readData v) }

/-- A 32-bit write at an offset of the window is taken and leads to the state `t`. -/
def writeLeadsTo (s : State) (off : Nat) (v : Word) (t : State) : Prop :=
  access (.write (s.base + off) (.b32 v)) s = .next t

/-- The access gets the bus error response and changes nothing else. -/
def answersBusError (s : State) (a : BusAccess) : Prop :=
  access a s = .next { s with response := some .busError }

/-- The next input is a successful INIT: the write of its word to CMD while the reset input is released, with key and
nonce supplied. -/
def initSucceedsNext (s : State) : Prop :=
  s.inReset = false ∧ readyForInit s ∧
    ∃ rest, s.pending = .access (.write (s.base + 0x034) (.b32 0x00000001#32)) :: rest

/-- The next input asserts the reset input. -/
def resetNext (s : State) : Prop :=
  ∃ rest, s.pending = .resetAssert :: rest

/-- What every step keeps: the shape of every state that a run reaches. -/
structure Inv (s : State) : Prop where
  /-- The working state is the one a fresh INIT at `BLKCNT` builds from `KEY` and `NONCE` (10_state.md R19, R26;
  41_block_transform.md R98). -/
  working : s.valid = true → s.ws = workingState s.key s.nonce s.blkcnt
  /-- The counter has not gone below its start (10_state.md R25). -/
  started : s.valid = true → s.sctr.toNat ≤ s.blkcnt.toNat
  /-- A cipher state exists only once key and nonce were supplied (40_init.md R76). -/
  supplied : s.valid = true → readyForInit s
  /-- `EXH` is set only by the block at `BLKCNT` = 2^64 - 1 (60_exceptions.md R118). -/
  exhausted : s.exh = true → s.valid = true ∧ s.blkcnt = 0xFFFFFFFFFFFFFFFF#64
  /-- `KS` is the block of the counter before (10_state.md R23). -/
  keystream : s.valid = true → blocksSinceInit s ≠ 0 →
    s.ks = block (workingState s.key s.nonce (lastBlockCounter s))
  /-- Before its first block a cipher state has no keystream (40_init.md R75, R78). -/
  fresh : s.valid = true → blocksSinceInit s = 0 →
    s.ks = Vector.replicate 16 0#32 ∧ s.cursor = 64 ∧ s.dout = 0#8
  /-- With no cipher state every element of it is at its reset value (10_state.md R16, R28). -/
  unbuilt : s.valid = false →
    s = { State.reset with
      err := s.err, pkey := s.pkey, keymask := s.keymask, pnonce := s.pnonce, noncemask := s.noncemask, pctr := s.pctr
      window := s.window, inReset := s.inReset, pending := s.pending, response := s.response }
  /-- A staging word whose mask bit is 0 was not written since reset (10_state.md R33). -/
  unwrittenKey : ∀ i : Fin 8, s.keymask.getLsbD i.val = false → s.pkey[i] = 0#32
  /-- The same for the nonce (10_state.md R34). -/
  unwrittenNonce : ∀ j : Fin 3, s.noncemask.getLsbD j.val = false → s.pnonce[j] = 0#32
  /-- `ERR` says NotInitialized only while there is no cipher state (60_exceptions.md R115). -/
  errNotInitialized : s.err = .notInitialized → s.valid = false
  /-- `ERR` says CounterExhausted only while `EXH` is set (60_exceptions.md R118). -/
  errExhausted : s.err = .counterExhausted → s.exh = true
  /-- While the reset input is asserted every element is at its reset value (70_reset_and_hazards.md R131, R133). -/
  held : s.inReset = true →
    s = { State.reset with window := s.window, inReset := true, pending := s.pending, response := s.response }

end Sys2Proof.Safety
end

