-- ==== Sys2Proof/Certificates/Slice0/Obligations.lean ====
section
/-! DEFINITION. The statements for the provers. Each says what a numbered rule of the spec says of the machine, or, where
its docstring says so, what follows from the rules of the section it names. -/

open Sys2Proof Sys2Proof.Machine Sys2Proof.Safety

/-! ### Encoding -/

/-- The encoding examples of 30_encoding.md section 4, in both directions, and the words of INIT and NEXTBLK. From R67,
which the spec marks as its own inference. -/
def Obligations.DecodeSampleWords : Prop :=
  decode 0x00004C03#32 = .ok (.xor 0x4C#8) ∧ encode (.xor 0x4C#8) = 0x00004C03#32 ∧
  decode 0x00000003#32 = .ok (.xor 0x00#8) ∧ encode (.xor 0x00#8) = 0x00000003#32 ∧
  decode 0x0000FF03#32 = .ok (.xor 0xFF#8) ∧ encode (.xor 0xFF#8) = 0x0000FF03#32 ∧
  decode 0x00000103#32 = .ok (.xor 0x01#8) ∧
  decode 0x00000001#32 = .ok .init ∧ decode 0x00000002#32 = .ok .nextblk ∧
  (∃ e, decode 0x00000101#32 = .error e) ∧ (∃ e, decode 0x00010003#32 = .error e)

/-- Decode and encode agree: decoding the word of a well-formed command gives the command back, and a word that decodes
to a command is that command's word (no word has a second spelling). From 30_encoding.md sections 1 and 2. -/
def Obligations.DecodeEncodeAgree : Prop :=
  (∀ i : Instr, i.wf = true → decode (encode i) = .ok i) ∧
  (∀ (w : Word) (i : Instr), decode w = .ok i → i.wf = true ∧ encode i = w)

/-- 30_encoding.md R61: a word is the command of a row exactly when `w & mask = match`; the byte of XOR is bits 15:8. -/
def Obligations.DecodeFollowsOpcodeMap : Prop :=
  ∀ w : Word,
    (decode w = .ok .init ↔ w &&& 0xFFFFFFFF#32 = 0x00000001#32) ∧
    (decode w = .ok .nextblk ↔ w &&& 0xFFFFFFFF#32 = 0x00000002#32) ∧
    (∀ d : Byte, decode w = .ok (.xor d) ↔ w &&& 0xFFFF00FF#32 = 0x00000003#32 ∧ d = w.extractLsb' 8 8)

/-- 30_encoding.md R63: the illegal words, by their fields, and what a write of one to CMD does: `ERR` says
IllegalCommand and no other state changes (beside the answer to the write), whatever the state (60_exceptions.md
R114). -/
def Obligations.IllegalWordsRefused : Prop :=
  ∀ w : Word,
    ((∃ e, decode w = .error e) ↔
      (w.extractLsb' 0 8 = 0x00#8 ∨ 0x04 ≤ (w.extractLsb' 0 8).toNat) ∨
      ((w.extractLsb' 0 8 = 0x01#8 ∨ w.extractLsb' 0 8 = 0x02#8) ∧
        (w.extractLsb' 8 8 ≠ 0#8 ∨ w.extractLsb' 16 16 ≠ 0#16)) ∨
      (w.extractLsb' 0 8 = 0x03#8 ∧ w.extractLsb' 16 16 ≠ 0#16)) ∧
    ∀ (s : State) (e : DecodeError), s.inReset = false → decode w = .error e →
      writeLeadsTo s 0x034 w { s with err := .illegalCommand, response := some .writeDone }

/-- The legal words are one INIT word, one NEXTBLK word and 256 XOR words, 258 in all. From 30_encoding.md section 3
(R64, which the spec marks as its own inference). -/
def Obligations.LegalWordsAre258 : Prop :=
  ∃ xors : List Word,
    xors = (List.range 256).map (fun d => BitVec.ofNat 32 (0x03 + 0x100 * d)) ∧
    (0x00000001#32 :: 0x00000002#32 :: xors).Nodup ∧
    (0x00000001#32 :: 0x00000002#32 :: xors).length = 258 ∧
    ∀ w : Word, (∃ i, decode w = .ok i) ↔ w ∈ 0x00000001#32 :: 0x00000002#32 :: xors

/-! ### Steps -/

/-- A step runs the decoded command: when the host's next access writes a word to CMD that decodes to `i`, and the reset
input is released, the step takes the access, answers the write and is `exec i`. From 30_encoding.md section 2 and
20_memory.md section 5. -/
def Obligations.StepRunsDecodedCommand : Prop :=
  ∀ (s : State) (rest : List Input) (w : Word) (i : Instr),
    s.inReset = false →
    s.pending = .access (.write (s.base + 0x034) (.b32 w)) :: rest →
    decode w = .ok i →
    step s = exec i { s with pending := rest, response := some .writeDone }

/-- 30_encoding.md R62: decoding happens once, when the host writes a word to CMD, in the order of the rule's
pseudocode. -/
def Obligations.CmdWriteDecodesOnce : Prop :=
  ∀ (s : State) (w : Word), s.inReset = false →
    access (.write (s.base + 0x034) (.b32 w)) s =
      if w &&& 0xFFFFFFFF#32 = 0x00000001#32 then exec .init { s with response := some .writeDone }
      else if w &&& 0xFFFFFFFF#32 = 0x00000002#32 then exec .nextblk { s with response := some .writeDone }
      else if w &&& 0xFFFF00FF#32 = 0x00000003#32 then
        exec (.xor (w.extractLsb' 8 8)) { s with response := some .writeDone }
      else .next { s with err := .illegalCommand, response := some .writeDone }

/-- The core never steps on its own: with no input its state is held. From 10_state.md section 1 and 60_exceptions.md
section 6. -/
def Obligations.IdleStepHoldsState : Prop :=
  ∀ s : State, s.pending = [] → step s = .next s

/-- Every step answers a next state: no command, access or change of the reset input stops the machine, and one input is
taken. From 00_scope.md section 4 (R13) and 60_exceptions.md section 1 (R117). -/
def Obligations.EveryStepAnswersNextState : Prop :=
  ∀ s : State, ∃ t, step s = .next t ∧ t.pending = s.pending.tail ∧ t.window = s.window

/-- The accesses of the host take effect in issue order, each complete before the next begins: running the steps of a
list of pending accesses is performing them one after another. From 20_memory.md section 5. -/
def Obligations.AccessesTakeEffectInIssueOrder : Prop :=
  ∀ (as : List BusAccess) (rest : List Input) (s : State),
    s.pending = as.map .access ++ rest →
    Host.Core.run Sys2Proof.core as.length s = accesses as (s.withPending rest)

/-! ### The register window -/

/-- 20_memory.md R45: the only legal accesses are 32-bit ones at `BASE + off` with `off` a multiple of 4 in
0x000..0x0FC; every other gets a bus error response, with no state change (`ERR` included) and no data. -/
def Obligations.BusErrorChangesNothing : Prop :=
  ∀ s : State, s.inReset = false →
    (∀ addr w, w ≠ .w32 → answersBusError s (.read addr w)) ∧
    (∀ addr v, answersBusError s (.write addr (.b8 v))) ∧
    (∀ addr v, answersBusError s (.write addr (.b16 v))) ∧
    (∀ addr v, answersBusError s (.write addr (.b64 v))) ∧
    (∀ addr, ¬ (∃ off, off ≤ 0x0FC ∧ off % 4 = 0 ∧ addr = s.base + off) →
      answersBusError s (.read addr .w32) ∧ ∀ v, answersBusError s (.write addr (.b32 v))) ∧
    (∀ off, off ≤ 0x0FC → off % 4 = 0 →
      (∃ t v, access (.read (s.base + off) .w32) s = .next t ∧ t.response = some (.readData v)) ∧
      ∀ v, ∃ t, access (.write (s.base + off) (.b32 v)) s = .next t ∧ t.response = some .writeDone)

/-- While the reset input is asserted, an access that 20_memory.md R45 refuses still gets the bus error response. The
model's choice (log entry 5): no rule says what such an access is answered then. -/
def Obligations.BusErrorWhileResetAsserted : Prop :=
  ∀ (s : State) (a : BusAccess), s.inReset = true →
    (∀ addr v, a ≠ .write addr (.b32 v) ∨ ∀ off, off ≤ 0x0FC → off % 4 = 0 → addr ≠ s.base + off) →
    (∀ addr, a ≠ .read addr .w32 ∨ ∀ off, off ≤ 0x0FC → off % 4 = 0 → addr ≠ s.base + off) →
    answersBusError s a

/-- 20_memory.md R43: a read returns the value the register map gives for its offset, and changes nothing. -/
def Obligations.ReadReturnsRegisterMap : Prop :=
  ∀ s : State, s.inReset = false →
    (∀ i : Fin 8, readsAs s (0x000 + 4 * i.val) 0#32) ∧
    (∀ j : Fin 3, readsAs s (0x020 + 4 * j.val) s.pnonce[j]) ∧
    readsAs s 0x02C (s.pctr.extractLsb' 0 32) ∧
    readsAs s 0x030 (s.pctr.extractLsb' 32 32) ∧
    readsAs s 0x034 0#32 ∧
    readsAs s 0x038 s.statusWord ∧
    readsAs s 0x03C (s.dout.setWidth 32) ∧
    readsAs s 0x040 (BitVec.ofNat 32 s.cursor.val) ∧
    readsAs s 0x044 (s.blkcnt.extractLsb' 0 32) ∧
    readsAs s 0x048 (s.blkcnt.extractLsb' 32 32) ∧
    readsAs s 0x04C (s.sctr.extractLsb' 0 32) ∧
    readsAs s 0x050 (s.sctr.extractLsb' 32 32) ∧
    readsAs s 0x054 s.ws[12] ∧
    readsAs s 0x058 s.ws[13] ∧
    (∀ k : Fin 16, readsAs s (0x080 + 4 * k.val) s.ks[k]) ∧
    (∀ off, off % 4 = 0 → (0x05C ≤ off ∧ off ≤ 0x07C) ∨ (0x0C0 ≤ off ∧ off ≤ 0x0FC) → readsAs s off 0#32)

/-- 20_memory.md R44: what a write does, offset by offset; everything the rule does not name is unchanged (beside the
answer to the write). -/
def Obligations.WritesFollowRegisterMap : Prop :=
  ∀ (s : State) (v : Word), s.inReset = false →
    (∀ i : Fin 8, writeLeadsTo s (0x000 + 4 * i.val) v
      { s with pkey := s.pkey.set i v, keymask := s.keymask ||| (1#8 <<< i.val), response := some .writeDone }) ∧
    (∀ j : Fin 3, writeLeadsTo s (0x020 + 4 * j.val) v
      { s with pnonce := s.pnonce.set j v, noncemask := s.noncemask ||| (1#3 <<< j.val), response := some .writeDone }) ∧
    writeLeadsTo s 0x02C v { s with pctr := s.pctr.extractLsb' 32 32 ++ v, response := some .writeDone } ∧
    writeLeadsTo s 0x030 v { s with pctr := v ++ s.pctr.extractLsb' 0 32, response := some .writeDone } ∧
    access (.write (s.base + 0x034) (.b32 v)) s = writeCmd v { s with response := some .writeDone } ∧
    (∀ off, 0x038 ≤ off → off ≤ 0x0FC → off % 4 = 0 →
      writeLeadsTo s off v { s with response := some .writeDone })

/-- 20_memory.md R40: a read of a reserved offset returns 0 and a write to one is ignored, with no bus error, whatever
the level of the reset input. -/
def Obligations.ReservedOffsetsReadZero : Prop :=
  ∀ (s : State) (off : Nat), off % 4 = 0 → (0x05C ≤ off ∧ off ≤ 0x07C) ∨ (0x0C0 ≤ off ∧ off ≤ 0x0FC) →
    readsAs s off 0#32 ∧ ∀ v, writeLeadsTo s off v { s with response := some .writeDone }

/-- The key cannot be read back: two states that differ only in `PKEY`, `KEY` and the words of `WS` other than 12 and 13
answer every read alike. From 20_memory.md sections 1 and 2 (R41) and 10_state.md section 4 (R20). -/
def Obligations.KeyMaterialCannotBeReadBack : Prop :=
  ∀ (s : State) (pk k : Vector Word 8) (w : Vector Word 16) (addr : Nat) (width : Width),
    w[12] = s.ws[12] → w[13] = s.ws[13] →
    ∃ t u, access (.read addr width) s = .next t ∧
      access (.read addr width) { s with pkey := pk, key := k, ws := w } = .next u ∧
      t.response = u.response

/-- The two halves of `BLKCNT` and `SCTR` read in two accesses are those of one value when no access between the reads
is a write of CMD. From 20_memory.md section 4 (R49, where the spec marks this as its own inference). -/
def Obligations.CounterHalvesReadConsistently : Prop :=
  ∀ (s : State) (as : List BusAccess), s.inReset = false →
    (∀ v, .write (s.base + 0x034) (.b32 v) ∉ as) →
    ∃ t lo hi slo shi, accesses as s = .next t ∧
      readsAs s 0x044 lo ∧ readsAs t 0x048 hi ∧ hi ++ lo = s.blkcnt ∧
      readsAs s 0x04C slo ∧ readsAs t 0x050 shi ∧ shi ++ slo = s.sctr

/-! ### Reset -/

/-- 70_reset_and_hazards.md R131: asserting the reset input, in any state, sets every element of the state to its reset
value. -/
def Obligations.ResetSetsEveryElement : Prop :=
  ∀ s : State, ∃ t, takeInput .resetAssert s = .next t ∧
    t.valid = false ∧ t.exh = false ∧ t.err = .ok ∧ t.cursor.val = 64 ∧
    (∀ i : Fin 16, t.ws[i] = 0#32) ∧ (∀ i : Fin 8, t.key[i] = 0#32) ∧ (∀ j : Fin 3, t.nonce[j] = 0#32) ∧
    (∀ i : Fin 16, t.ks[i] = 0#32) ∧ t.blkcnt = 0#64 ∧ t.sctr = 0#64 ∧ t.dout = 0#8 ∧
    (∀ i : Fin 8, t.pkey[i] = 0#32) ∧ (∀ j : Fin 3, t.pnonce[j] = 0#32) ∧ t.pctr = 0#64 ∧
    t.keymask = 0#8 ∧ t.noncemask = 0#3

/-- A command under way when reset is asserted has no visible effect: whether a command ran before the reset or not, the
state after it is the same. From 70_reset_and_hazards.md section 1 (the last sentence of R131, which the spec marks as
its own inference); that a command and the reset do not overlap in a step is the model's choice (log entry 8). -/
def Obligations.ResetHidesCommandUnderWay : Prop :=
  ∀ (i : Instr) (s : State), ∃ t u, exec i s = .next t ∧
    takeInput .resetAssert t = .next u ∧ takeInput .resetAssert s = .next u

/-- While reset is asserted reads of the window return 0 and writes are ignored, and the first access after its release,
whatever accesses were made meanwhile, sees the state of R131. From 70_reset_and_hazards.md section 1 (R133). That an
ignored write is answered as one that was taken is the model's reading (log entry 19), and that the window and the
inputs to come stay across reset is the model's choice (log entry 9); of the last answer the second part says nothing. -/
def Obligations.AccessesWhileResetAsserted : Prop :=
  (∀ (s : State) (off : Nat), s.inReset = true → off ≤ 0x0FC → off % 4 = 0 →
    readsAs s off 0#32 ∧ ∀ v, writeLeadsTo s off v { s with response := some .writeDone }) ∧
  (∀ (s : State) (as : List BusAccess), ∃ a b c, takeInput .resetAssert s = .next a ∧ accesses as a = .next b ∧
    takeInput .resetRelease b = .next c ∧
    c = { State.reset with window := s.window, pending := s.pending, response := c.response })

/-- After reset `STATUS` reads 0 and `CURSOR` reads 64. From 70_reset_and_hazards.md section 1 (R132, which the spec marks
as its own inference). -/
def Obligations.ReadsAfterReset : Prop :=
  readsAs State.reset 0x038 0x00000000#32 ∧ readsAs State.reset 0x040 0x00000040#32

/-! ### The status register -/

/-- 10_state.md R31: the fields of STATUS and its reserved bits, and that a write to it is ignored. The codes are those
of R30. -/
def Obligations.StatusFieldsReadState : Prop :=
  ∀ s : State, s.inReset = false →
    (∃ w : Word, readsAs s 0x038 w ∧
      w.getLsbD 0 = s.valid ∧ w.getLsbD 1 = s.exh ∧ w.extractLsb' 2 2 = 0#2 ∧
      (w.extractLsb' 4 3).toNat =
        (match s.err with
        | .ok => 0
        | .invalidKeyLength => 1
        | .invalidNonceLength => 2
        | .counterExhausted => 3
        | .notInitialized => 4
        | .illegalCommand => 5) ∧
      w.getLsbD 7 = false ∧ w.extractLsb' 8 8 = s.keymask ∧ w.extractLsb' 16 3 = s.noncemask ∧
      w.extractLsb' 19 13 = 0#13) ∧
    ∀ v, writeLeadsTo s 0x038 v { s with response := some .writeDone }

/-! ### INIT -/

/-- 40_init.md R74 (the working state) and the rest of what a successful INIT does, with everything else unchanged: it
completes whenever all key and nonce words were supplied, whatever the cipher state was. -/
def Obligations.InitBuildsCipherState : Prop :=
  ∀ s : State, readyForInit s →
    exec .init s = .next { s with
      key := s.pkey
      nonce := s.pnonce
      sctr := s.pctr
      blkcnt := s.pctr
      ws := #v[0x61707865#32, 0x3320646E#32, 0x79622D32#32, 0x6B206574#32,
        s.pkey[0], s.pkey[1], s.pkey[2], s.pkey[3], s.pkey[4], s.pkey[5], s.pkey[6], s.pkey[7],
        s.pctr.extractLsb' 0 32, s.pnonce[0] + s.pctr.extractLsb' 32 32, s.pnonce[1], s.pnonce[2]]
      ks := Vector.replicate 16 0#32
      dout := 0#8
      cursor := 64
      exh := false
      valid := true
      err := .ok }

/-- 40_init.md R77: a refused INIT changes nothing but `ERR`; the two refusals are those of R76. -/
def Obligations.RefusedInitChangesOnlyErr : Prop :=
  ∀ s : State,
    (s.keymask ≠ 0xFF#8 → exec .init s = .next { s with err := .invalidKeyLength }) ∧
    (s.keymask = 0xFF#8 → s.noncemask ≠ 0x7#3 → exec .init s = .next { s with err := .invalidNonceLength })

/-- A second INIT without new staging writes rebuilds the same state, whatever commands were issued in between. From
40_init.md section 2 (R72, R78). -/
def Obligations.ReInitRebuildsSameState : Prop :=
  ∀ (s : State) (cs : List Instr), readyForInit s →
    ∃ t u, commands cs s = .next t ∧ exec .init s = .next u ∧ exec .init t = .next u

/-- The four constant words a successful INIT leaves are the ASCII bytes of "expand 32-byte k" packed little-endian. From
40_init.md section 2 (R73; the ASCII codes are general knowledge and the packing an inference, as the spec marks
them). -/
def Obligations.ConstantWordsAreAscii : Prop :=
  ∀ s : State, readyForInit s →
    ∃ t, exec .init s = .next t ∧
      t.ws[0] = le32 0x65#8 0x78#8 0x70#8 0x61#8 ∧ t.ws[0] = 0x61707865#32 ∧
      t.ws[1] = le32 0x6E#8 0x64#8 0x20#8 0x33#8 ∧ t.ws[1] = 0x3320646E#32 ∧
      t.ws[2] = le32 0x32#8 0x2D#8 0x62#8 0x79#8 ∧ t.ws[2] = 0x79622D32#32 ∧
      t.ws[3] = le32 0x74#8 0x65#8 0x20#8 0x6B#8 ∧ t.ws[3] = 0x6B206574#32

/-- Because word 13 is a sum, two pairs of nonce word 0 and counter whose sums and low halves agree build the same counter
words and give the same first block; the rule's example is the second part. From 40_init.md section 2 (R80, which the
spec marks as its own inference). -/
def Obligations.AliasedCountersGiveEqualBlocks : Prop :=
  (∀ s s' : State, readyForInit s → readyForInit s' → s.pkey = s'.pkey →
    s.pctr.extractLsb' 0 32 = s'.pctr.extractLsb' 0 32 →
    s.pnonce[0] + s.pctr.extractLsb' 32 32 = s'.pnonce[0] + s'.pctr.extractLsb' 32 32 →
    s.pnonce[1] = s'.pnonce[1] → s.pnonce[2] = s'.pnonce[2] →
    ∃ a a' t t', exec .init s = .next a ∧ exec .init s' = .next a' ∧ a.ws[12] = a'.ws[12] ∧ a.ws[13] = a'.ws[13] ∧
      exec .nextblk a = .next t ∧ exec .nextblk a' = .next t' ∧ t.ks = t'.ks ∧ t.err = .ok ∧ t'.err = .ok) ∧
  (∀ (k : Vector Word 8) (n1 n2 : Word),
    block (workingState k #v[0xFFFFFFFF#32, n1, n2] 0x0000000100000000#64) =
      block (workingState k #v[0x00000000#32, n1, n2] 0x0000000000000000#64))

/-- SETUP realizes the source's `initialize(key, nonce, startCounter)`: from any state with the reset input released,
whatever was staged before, its accesses leave the cipher state of the given key bytes, nonce bytes and counter. From
30_encoding.md section 4 (R66), 20_memory.md section 3 (R46, R47) and 40_init.md section 1 (R70, R71). -/
def Obligations.SetupRealizesInitialize : Prop :=
  ∀ (s : State) (k : Vector Byte (4 * 8)) (n : Vector Byte (4 * 3)) (c : Word64), s.inReset = false →
    ∃ t, accesses (setup s.base k n c) s = .next t ∧
      (∀ i : Fin 8, t.key[i] = le32 k[4 * i.val] k[4 * i.val + 1] k[4 * i.val + 2] k[4 * i.val + 3] ∧
        t.ws[4 + i.val] = t.key[i]) ∧
      (∀ j : Fin 3, t.nonce[j] = le32 n[4 * j.val] n[4 * j.val + 1] n[4 * j.val + 2] n[4 * j.val + 3]) ∧
      t.ws[0] = 0x61707865#32 ∧ t.ws[1] = 0x3320646E#32 ∧ t.ws[2] = 0x79622D32#32 ∧ t.ws[3] = 0x6B206574#32 ∧
      t.ws[12] = c.extractLsb' 0 32 ∧ t.ws[13] = t.nonce[0] + c.extractLsb' 32 32 ∧
      t.ws[14] = t.nonce[1] ∧ t.ws[15] = t.nonce[2] ∧
      t.blkcnt = c ∧ t.sctr = c ∧ t.cursor.val = 64 ∧ t.statusWord = 0x0007FF01#32

/-! ### The block transform and NEXTBLK -/

/-- 41_block_transform.md R82: the quarter-round over four distinct indices is the four add-rotate-XOR steps of the rule,
each reading what the one before wrote, and no other word changes. -/
def Obligations.QuarterRoundSteps : Prop :=
  ∀ (x : Scratch) (a b c d : Fin 16) (a1 a2 b1 b2 c1 c2 d1 d2 : Word), [a, b, c, d].Nodup →
    a1 = x[a] + x[b] → d1 = (x[d] ^^^ a1).rotateLeft 16 →
    c1 = x[c] + d1 → b1 = (x[b] ^^^ c1).rotateLeft 12 →
    a2 = a1 + b1 → d2 = (d1 ^^^ a2).rotateLeft 8 →
    c2 = c1 + d2 → b2 = (b1 ^^^ c2).rotateLeft 7 →
    (quarterRound x ⟨a, b, c, d⟩)[a] = a2 ∧ (quarterRound x ⟨a, b, c, d⟩)[b] = b2 ∧
    (quarterRound x ⟨a, b, c, d⟩)[c] = c2 ∧ (quarterRound x ⟨a, b, c, d⟩)[d] = d2 ∧
    ∀ i : Fin 16, i ∉ [a, b, c, d] → (quarterRound x ⟨a, b, c, d⟩)[i] = x[i]

/-- The four quarter-rounds of a round may be evaluated in any order with the same result, and the patterns of each round
together cover 0..15 once. From 41_block_transform.md section 2 (R84, R85, R88). -/
def Obligations.QuarterRoundsOfARoundCommute : Prop :=
  (columnPatterns.flatMap fun p => [p.a, p.b, p.c, p.d]).Perm (List.finRange 16) ∧
  (diagonalPatterns.flatMap fun p => [p.a, p.b, p.c, p.d]).Perm (List.finRange 16) ∧
  (∀ (ps : List Pattern) (x : Scratch), ps.Perm columnPatterns → quarterRounds ps x = columnRound x) ∧
  (∀ (ps : List Pattern) (x : Scratch), ps.Perm diagonalPatterns → quarterRounds ps x = diagonalRound x)

/-- 41_block_transform.md R89, with R86 and R87: the block is 10 double-rounds over the eight patterns on a copy of the
working state, and each word of the result is added to the word of the working state. -/
def Obligations.BlockIsTenDoubleRoundsPlusInput : Prop :=
  ∀ (ws : Vector Word 16) (i : Fin 16),
    (block ws)[i] =
      ((fun x : Scratch =>
        [⟨0, 4, 8, 12⟩, ⟨1, 5, 9, 13⟩, ⟨2, 6, 10, 14⟩, ⟨3, 7, 11, 15⟩,
          ⟨0, 5, 10, 15⟩, ⟨1, 6, 11, 12⟩, ⟨2, 7, 8, 13⟩, ⟨3, 4, 9, 14⟩].foldl quarterRound x)^[10] ws)[i] + ws[i]

/-- Known answers: the quarter-round of 95_test_vectors.md G2-a, the block of G2-c and the zero-state block of V-BLK-1.
From 95_test_vectors.md sections 1.3, 2.2 and 2.5. -/
def Obligations.BlockKnownAnswers : Prop :=
  quarterRound (#v[0x11111111#32, 0x01020304#32, 0x9B8D6F43#32, 0x01234567#32] ++ Vector.replicate 12 0#32) ⟨0, 1, 2, 3⟩
    = #v[0xEA2A92F4#32, 0xCB1CF8CE#32, 0x4581472E#32, 0x5881C4BB#32] ++ Vector.replicate 12 0#32 ∧
  block #v[0x61707865#32, 0x3320646E#32, 0x79622D32#32, 0x6B206574#32,
      0x03020100#32, 0x07060504#32, 0x0B0A0908#32, 0x0F0E0D0C#32,
      0x13121110#32, 0x17161514#32, 0x1B1A1918#32, 0x1F1E1D1C#32,
      0x00000001#32, 0x09000000#32, 0x4A000000#32, 0x00000000#32] =
    #v[0xE4E7F110#32, 0x15593BD1#32, 0x1FDD0F50#32, 0xC47120A3#32,
      0xC7F4D1C7#32, 0x0368C033#32, 0x9AAA2204#32, 0x4E6CD4C3#32,
      0x466482D2#32, 0x09AA9F07#32, 0x05D7C214#32, 0xA2028BD9#32,
      0xD19C12B5#32, 0xB94E16DE#32, 0xE883D0CB#32, 0x4E3C50A2#32] ∧
  block #v[0x61707865#32, 0x3320646E#32, 0x79622D32#32, 0x6B206574#32, 0, 0, 0, 0, 0, 0, 0, 0, 0, 0, 0, 0] =
    #v[0xADE0B876#32, 0x903DF1A0#32, 0xE56A5D40#32, 0x28BD8653#32,
      0xB819D2BD#32, 0x1AED8DA0#32, 0xCCEF36A8#32, 0xC70D778B#32,
      0x7C5941DA#32, 0x8D485751#32, 0x3FE02477#32, 0x374AD8B8#32,
      0xF4B8436A#32, 0x1CA11815#32, 0x69B687C3#32, 0x8665EEB2#32]

/-- 41_block_transform.md R92: NEXTBLK inside the counter space writes the block of the working state as it stood,
advances the 64-bit counter with the carry into word 13, and changes nothing else. -/
def Obligations.NextblkAdvancesCounter : Prop :=
  ∀ s : State, readyForBlock s → s.blkcnt ≠ 0xFFFFFFFFFFFFFFFF#64 →
    ∃ t, exec .nextblk s = .next t ∧
      t = { s with ks := block s.ws, blkcnt := t.blkcnt, ws := t.ws, err := .ok } ∧
      t.blkcnt.toNat = s.blkcnt.toNat + 1 ∧
      t.ws[12] = s.ws[12] + 1#32 ∧
      t.ws[13] = (if s.ws[12] + 1#32 = 0#32 then s.ws[13] + 1#32 else s.ws[13]) ∧
      ∀ i : Fin 16, i ≠ 12 → i ≠ 13 → t.ws[i] = s.ws[i]

/-- 41_block_transform.md R93: the block at `BLKCNT` = 2^64 - 1 is produced, nothing advances and `EXH` is set; every
later attempt to generate a block is refused with CounterExhausted. -/
def Obligations.LastBlockSetsExhausted : Prop :=
  (∀ s : State, readyForBlock s → s.blkcnt = 0xFFFFFFFFFFFFFFFF#64 →
    exec .nextblk s = .next { s with ks := block s.ws, exh := true, err := .ok } ∧
    ∀ d : Byte, s.cursor.val = 64 →
      exec (.xor d) s = .next { s with
        ks := block s.ws, exh := true, err := .ok, dout := d ^^^ (block s.ws)[0].extractLsb' 0 8, cursor := 1 }) ∧
  (∀ s : State, s.valid = true → s.exh = true →
    exec .nextblk s = .next { s with err := .counterExhausted } ∧
    ∀ d : Byte, s.cursor.val = 64 → exec (.xor d) s = .next { s with err := .counterExhausted })

/-- 41_block_transform.md R100: NEXTBLK has exactly two error conditions, and refused it changes only `ERR`. -/
def Obligations.NextblkErrorConditions : Prop :=
  ∀ s : State,
    (s.valid = false → exec .nextblk s = .next { s with err := .notInitialized }) ∧
    (s.valid = true → s.exh = true → exec .nextblk s = .next { s with err := .counterExhausted }) ∧
    (readyForBlock s → ∃ t, exec .nextblk s = .next t ∧ t.err = .ok)

/-- 41_block_transform.md R96: NEXTBLK does not write `CURSOR` or `DOUT` or anything beside the keystream block, the
counter and its result, and it does not read them: with other values there it does the same. -/
def Obligations.NextblkIgnoresCursorAndDout : Prop :=
  ∀ (s : State) (c : Fin 65) (d : Byte), ∃ t, exec .nextblk s = .next t ∧ t.cursor = s.cursor ∧ t.dout = s.dout ∧
    t = { s with ks := t.ks, ws := t.ws, blkcnt := t.blkcnt, exh := t.exh, err := t.err } ∧
    exec .nextblk { s with cursor := c, dout := d } = .next { t with cursor := c, dout := d }

/-- 41_block_transform.md R99: word 13 wraps silently, and exhaustion is decided on `BLKCNT` alone: a block generation
inside the counter space never sets `EXH`, whatever the words 12 and 13 are. -/
def Obligations.WordThirteenWrapsSilently : Prop :=
  ∀ s : State, readyForBlock s →
    ∃ t, exec .nextblk s = .next t ∧ t.err = .ok ∧ (t.exh = true ↔ s.blkcnt = 0xFFFFFFFFFFFFFFFF#64) ∧
      (s.blkcnt ≠ 0xFFFFFFFFFFFFFFFF#64 → s.ws[12] = 0xFFFFFFFF#32 → s.ws[13] = 0xFFFFFFFF#32 →
        t.ws[12] = 0#32 ∧ t.ws[13] = 0#32)

/-- Counter advance correctness: from INIT at c, after any commands (no INIT among them) of which k generate a block, with
c + k at most 2^64 - 1, `BLKCNT` is c + k, the counter words are those of c + k, and both they and the next block are
those of a fresh INIT at c + k. From 41_block_transform.md section 6 (R98, which the spec marks as its own inference). -/
def Obligations.CounterAdvanceCorrect : Prop :=
  ∀ (s a : State) (cs : List Instr), exec .init s = .next a → a.err = .ok → .init ∉ cs →
    s.pctr.toNat + generations cs a ≤ 2 ^ 64 - 1 →
    ∃ t b t' b' c, c = BitVec.ofNat 64 (s.pctr.toNat + generations cs a) ∧
      commands cs a = .next t ∧ exec .init { s with pctr := c } = .next b ∧
      t.blkcnt = c ∧ t.ws[12] = c.extractLsb' 0 32 ∧ t.ws[13] = t.nonce[0] + c.extractLsb' 32 32 ∧
      t.ws = b.ws ∧ t.blkcnt = b.blkcnt ∧
      exec .nextblk t = .next t' ∧ exec .nextblk b = .next b' ∧ t'.err = .ok ∧ t'.ks = b'.ks

/-- One cipher state never uses a counter value twice: of two block generations with no INIT between them the later one
is at a larger `BLKCNT`. From 70_reset_and_hazards.md section 3 (R144). -/
def Obligations.CounterValueNeverReused : Prop :=
  ∀ (s a t : State) (i j : Instr) (cs : List Instr),
    generates i s = true → exec i s = .next a → .init ∉ cs → commands cs a = .next t → generates j t = true →
    s.blkcnt.toNat < t.blkcnt.toNat

/-! ### XOR -/

/-- With `CURSOR` = p < 64 XOR succeeds, `EXH` set or not, combines its byte with keystream byte p, and changes nothing but
`DOUT`, `CURSOR` and `ERR`. From 42_stream_xor.md section 1 (R102, R103, and R105, which the spec marks as its own
inference). -/
def Obligations.XorConsumesByteInBlock : Prop :=
  ∀ (s : State) (d : Byte) (p : Fin 64), s.valid = true → s.cursor.val = p.val →
    exec (.xor d) s = .next { s with
      dout := d ^^^ s.ks[p.val / 4].extractLsb' (8 * (p.val % 4)) 8
      cursor := p.succ
      err := .ok }

/-- 42_stream_xor.md R104: an XOR that finds `CURSOR` = 64 generates the next block, exactly as NEXTBLK does, before its
byte is combined with byte 0 of that block; an XOR that finds `CURSOR` < 64, the one that leaves 64 too, generates
none. -/
def Obligations.XorRegeneratesLazily : Prop :=
  (∀ (s : State) (d : Byte), readyForBlock s → s.cursor.val = 64 →
    ∃ u, exec .nextblk s = .next u ∧ u.ks = block s.ws ∧
      exec (.xor d) s = .next { u with dout := d ^^^ (block s.ws)[0].extractLsb' 0 8, cursor := 1 }) ∧
  (∀ (s : State) (d : Byte), s.valid = true → s.cursor.val < 64 →
    ∃ t, exec (.xor d) s = .next t ∧ t.cursor.val = s.cursor.val + 1 ∧ t.ks = s.ks ∧ t.ws = s.ws ∧
      t.blkcnt = s.blkcnt)

/-- The refusals of XOR: it changes nothing but `ERR`. From 42_stream_xor.md section 1 (R102) and 60_exceptions.md
section 1 (R115, R118). -/
def Obligations.RefusedXorChangesOnlyErr : Prop :=
  ∀ (s : State) (d : Byte),
    (s.valid = false → exec (.xor d) s = .next { s with err := .notInitialized }) ∧
    (s.valid = true → s.cursor.val = 64 → s.exh = true → exec (.xor d) s = .next { s with err := .counterExhausted })

/-- Keystream byte j is `KS[j div 4][8*(j mod 4)+7 : 8*(j mod 4)]`, and the 64 bytes packed little-endian are the 16
words. From 20_memory.md section 3 (R48) and 00_scope.md section 4 (R11). -/
def Obligations.KeystreamBytesAreLittleEndian : Prop :=
  ∀ ks : Vector Word 16,
    (∀ j : Fin 64, ksByte ks j = ks[j.val / 4].extractLsb' (8 * (j.val % 4)) 8) ∧
    packWords (n := 16) (Vector.ofFn (ksByte ks)) = ks

/-- Streaming and raw extraction agree: the XOR that generated a block and those after it, up to the 64th, use its bytes in order, and
the block stays readable in `KS` throughout. From 42_stream_xor.md section 2 (R112, which the spec marks as its own
inference). -/
def Obligations.StreamingAgreesWithExtraction : Prop :=
  ∀ (s : State) (ds : List Byte) (d : Byte) (m : Fin 64), readyForBlock s → s.cursor.val = 64 → ds.length = m.val →
    ∃ t, commands ((ds ++ [d]).map .xor) s = .next t ∧
      t.ks = block s.ws ∧ t.dout ^^^ d = ksByte t.ks m ∧ t.cursor.val = m.val + 1 ∧ t.err = .ok

/-- Keystream position: from INIT at c, with XOR commands only, the m-th XOR combines its byte with byte m mod 64 of
the block at counter c + m div 64, for c + m div 64 up to 2^64 - 1 (and then none of them is refused). From
42_stream_xor.md section 2 (R109, which the spec marks as its own inference). -/
def Obligations.KeystreamPosition : Prop :=
  ∀ (s a : State) (ds : List Byte) (d : Byte), exec .init s = .next a → a.err = .ok →
    s.pctr.toNat + ds.length / 64 ≤ 2 ^ 64 - 1 →
    ∃ t, commands ((ds ++ [d]).map .xor) a = .next t ∧ t.err = .ok ∧
      t.dout = d ^^^ ksByte (block (workingState s.pkey s.pnonce (BitVec.ofNat 64 (s.pctr.toNat + ds.length / 64))))
        ⟨ds.length % 64, Nat.mod_lt _ (by decide)⟩

/-- Resumability: any split of a buffer into consecutive applications gives the same bytes, and the same state of
the core, as one application over the whole buffer. From 42_stream_xor.md section 2 (R106, and R108, which the spec
marks as its own inference). -/
def Obligations.ChunkingInvariance : Prop :=
  ∀ (chunks : List (List Byte)) (s : State), applyChunks chunks s = applyKeystream chunks.flatten s

/-- Self-inverse: two cores, or one initialized again, with the same staged key, nonce and start counter: applying
the keystream of the second to what the first made of a buffer gives the buffer back. From 42_stream_xor.md section 2
(R110, which the spec marks as its own inference). -/
def Obligations.ApplyIsSelfInverse : Prop :=
  ∀ (s s' a a' : State) (m : List Byte),
    s.pkey = s'.pkey → s.pnonce = s'.pnonce → s.pctr = s'.pctr → s.inReset = false → s'.inReset = false →
    exec .init s = .next a → a.err = .ok → exec .init s' = .next a' → a'.err = .ok →
    ∃ b out b', applyKeystream m a = .next (b, out) ∧ applyKeystream out a' = .next (b', m)

/-- A zero-length application issues no access and changes nothing. From 42_stream_xor.md section 2 (R107). -/
def Obligations.ZeroLengthApplyDoesNothing : Prop :=
  ∀ s : State, applyKeystream [] s = .next (s, []) ∧ apply s.base [] = []

/-- NEXTBLK between XORs shifts the stream. With `CURSOR` = 64 the block NEXTBLK made is never used: the next XOR takes
byte 0 of the block after it. With `CURSOR` = p < 64 the next XOR takes byte p of the block NEXTBLK made. From
70_reset_and_hazards.md section 3 (R141, which the spec marks as its own inference). -/
def Obligations.NextblkShiftsTheStream : Prop :=
  ∀ (s : State) (d : Byte), readyForBlock s → s.blkcnt ≠ 0xFFFFFFFFFFFFFFFF#64 →
    ∃ u t, exec .nextblk s = .next u ∧ exec (.xor d) u = .next t ∧ u.ks = block s.ws ∧ t.err = .ok ∧
      (s.cursor.val = 64 → t.ks = block u.ws ∧ t.dout = d ^^^ ksByte (block u.ws) 0 ∧ t.cursor.val = 1) ∧
      (∀ p : Fin 64, s.cursor.val = p.val → t.ks = block s.ws ∧ t.dout = d ^^^ ksByte (block s.ws) p ∧
        t.cursor.val = p.val + 1)

/-! ### Errors and whole-machine rules -/

/-- 60_exceptions.md R119: a word written to CMD reports exactly one result, the first that applies in the order of the
rule. -/
def Obligations.ErrorPriority : Prop :=
  ∀ (s : State) (w : Word), s.inReset = false →
    ∃ t, access (.write (s.base + 0x034) (.b32 w)) s = .next t ∧
      t.err =
        if ¬ (w &&& 0xFFFFFFFF#32 = 0x00000001#32 ∨ w &&& 0xFFFFFFFF#32 = 0x00000002#32 ∨
            w &&& 0xFFFF00FF#32 = 0x00000003#32) then .illegalCommand
        else if w = 0x00000001#32 ∧ s.keymask ≠ 0xFF#8 then .invalidKeyLength
        else if w = 0x00000001#32 ∧ s.noncemask ≠ 0x7#3 then .invalidNonceLength
        else if w ≠ 0x00000001#32 ∧ s.valid = false then .notInitialized
        else if (w = 0x00000002#32 ∨ (w ≠ 0x00000001#32 ∧ s.cursor.val = 64)) ∧ s.exh = true then .counterExhausted
        else .ok

/-- 60_exceptions.md R117: a command that is refused, whatever its word, writes `ERR` and every other state element keeps
its value. -/
def Obligations.RefusedCommandChangesOnlyErr : Prop :=
  ∀ (s t : State) (w : Word), writeCmd w s = .next t → t.err ≠ .ok → t = { s with err := t.err }

/-- 10_state.md R29: `EXH` is set only by a block generation at `BLKCNT` = 2^64 - 1; while it is 1 every attempt to
generate a block is refused with CounterExhausted; only a successful INIT or reset clears it. -/
def Obligations.ExhaustedFlagIsSticky : Prop :=
  (∀ s t : State, s.exh = false → step s = .next t → t.exh = true → s.blkcnt = 0xFFFFFFFFFFFFFFFF#64 ∧ t.err = .ok) ∧
  (∀ s : State, s.valid = true → s.exh = true →
    exec .nextblk s = .next { s with err := .counterExhausted } ∧
    ∀ d : Byte, s.cursor.val = 64 → exec (.xor d) s = .next { s with err := .counterExhausted }) ∧
  (∀ s t : State, s.exh = true → step s = .next t → t.exh = false → initSucceedsNext s ∨ resetNext s)

/-- 10_state.md R27: `SCTR` is latched from `PCTR` by a successful INIT, and no other command and no other access writes
it (reset does). The same holds of the key, the nonce and `VALID` (R21, R22, R28). -/
def Obligations.KeyNonceAndStartFixed : Prop :=
  (∀ s t : State, step s = .next t → ¬ initSucceedsNext s → ¬ resetNext s →
    t.key = s.key ∧ t.nonce = s.nonce ∧ t.sctr = s.sctr ∧ t.valid = s.valid) ∧
  (∀ s : State, initSucceedsNext s →
    ∃ t, step s = .next t ∧ t.key = s.pkey ∧ t.nonce = s.pnonce ∧ t.sctr = s.pctr ∧ t.valid = true)

/-- Only INIT and the counter advance (and reset) write `WS`: any other step leaves all of it, and the counter advance
writes words 12 and 13 only. From 10_state.md section 4 (R19). -/
def Obligations.OnlyInitAndAdvanceWriteWs : Prop :=
  ∀ s t : State, step s = .next t → ¬ initSucceedsNext s → ¬ resetNext s →
    (∀ i : Fin 16, i ≠ 12 → i ≠ 13 → t.ws[i] = s.ws[i]) ∧
    (t.blkcnt = s.blkcnt → t.ws = s.ws)

/-- A write of KEYWi, NONCEWj, CTRW_LO or CTRW_HI changes only staging: the running cipher
state keeps its key, nonce and counter, and all the rest of it. From 70_reset_and_hazards.md section 3 (R138, which the
spec marks as its own inference). -/
def Obligations.StagingWritesDoNotReachCipherState : Prop :=
  ∀ (s : State) (off : Nat) (v : Word), s.inReset = false → off ≤ 0x030 → off % 4 = 0 →
    ∃ t, access (.write (s.base + off) (.b32 v)) s = .next t ∧
      t = { s with pkey := t.pkey, keymask := t.keymask, pnonce := t.pnonce, noncemask := t.noncemask, pctr := t.pctr
                   response := some .writeDone }

/-- Commands leave the staging registers and their masks, and only reset clears a mask bit. From 10_state.md section 8
(R33, R34) and 40_init.md section 2 (R78). -/
def Obligations.StagingSurvivesCommands : Prop :=
  (∀ (i : Instr) (s : State), ∃ t, exec i s = .next t ∧ t.pkey = s.pkey ∧ t.keymask = s.keymask ∧
    t.pnonce = s.pnonce ∧ t.noncemask = s.noncemask ∧ t.pctr = s.pctr ∧
    t.window = s.window ∧ t.inReset = s.inReset ∧ t.pending = s.pending ∧ t.response = s.response) ∧
  (∀ s t : State, step s = .next t → ¬ resetNext s →
    (∀ i : Fin 8, s.keymask.getLsbD i.val = true → t.keymask.getLsbD i.val = true) ∧
    (∀ j : Fin 3, s.noncemask.getLsbD j.val = true → t.noncemask.getLsbD j.val = true))

/-! ### Invariants -/

/-- The invariant holds right after reset, wherever the window sits and whatever comes next. From
70_reset_and_hazards.md section 1 (R131). -/
def Obligations.InvariantAtReset : Prop :=
  ∀ (w : Nat) (p : List Input), Safety.Inv { State.reset with window := w, pending := p }

/-- Every step keeps the invariant: the working state is the one a fresh INIT at `BLKCNT` builds, `KS` is the block of the
counter before, `EXH` stands only at the end of the counter space, and the rest of `Safety.Inv`. From 10_state.md
sections 4 to 8. -/
def Obligations.EveryStepKeepsInvariant : Prop :=
  ∀ s t : State, Safety.Inv s → step s = .next t → Safety.Inv t

/-- The counter invariant: while `VALID` = 1, `WS[12] = BLKCNT[31:0]` and `WS[13] = NONCE[0] +32 BLKCNT[63:32]`, in every
state that a run from reset reaches, whatever the host does. From 10_state.md section 6 (R26, which the spec marks as its
own inference). -/
def Obligations.CounterInvariantReachable : Prop :=
  ∀ (w n : Nat) (p : List Input) (t : State),
    Host.Core.run Sys2Proof.core n { State.reset with window := w, pending := p } = .next t → t.valid = true →
    t.ws[12] = t.blkcnt.extractLsb' 0 32 ∧ t.ws[13] = t.nonce[0] + t.blkcnt.extractLsb' 32 32

/-! ### Several instances -/

/-- 60_exceptions.md R127: an access to one instance changes no other, and the instances are told apart by their base
alone: at most one of them is reached. -/
def Obligations.InstancesShareNothing : Prop :=
  ∀ (y : System) (a : BusAccess), y.wf = true →
    ∃ z, y.access a = .next z ∧ z.cores.length = y.cores.length ∧
      (∀ (j : Nat) (s : State), y.cores[j]? = some s → s.claims a = false → z.cores[j]? = some s) ∧
      (∀ (j : Nat) (s : State), y.cores[j]? = some s → s.claims a = true →
        (∃ t, access a s = .next t ∧ z.cores[j]? = some t ∧ z.response a = t.response) ∧
        ∀ (k : Nat) (u : State), y.cores[k]? = some u → u.claims a = true → k = j)
end

