-- ==== Sys2Proof/Laws/State.lean ====
section
/-! SUPPORT. One lemma per field per named update of `State`, so that no proof unfolds a record update. -/

namespace Sys2Proof.Machine

@[simp] theorem State.setErr_ws (s : State) (e : ErrCode) : (s.setErr e).ws = s.ws := rfl
@[simp] theorem State.setErr_key (s : State) (e : ErrCode) : (s.setErr e).key = s.key := rfl
@[simp] theorem State.setErr_nonce (s : State) (e : ErrCode) : (s.setErr e).nonce = s.nonce := rfl
@[simp] theorem State.setErr_ks (s : State) (e : ErrCode) : (s.setErr e).ks = s.ks := rfl
@[simp] theorem State.setErr_cursor (s : State) (e : ErrCode) : (s.setErr e).cursor = s.cursor := rfl
@[simp] theorem State.setErr_blkcnt (s : State) (e : ErrCode) : (s.setErr e).blkcnt = s.blkcnt := rfl
@[simp] theorem State.setErr_sctr (s : State) (e : ErrCode) : (s.setErr e).sctr = s.sctr := rfl
@[simp] theorem State.setErr_valid (s : State) (e : ErrCode) : (s.setErr e).valid = s.valid := rfl
@[simp] theorem State.setErr_exh (s : State) (e : ErrCode) : (s.setErr e).exh = s.exh := rfl
@[simp] theorem State.setErr_err (s : State) (e : ErrCode) : (s.setErr e).err = e := rfl
@[simp] theorem State.setErr_dout (s : State) (e : ErrCode) : (s.setErr e).dout = s.dout := rfl
@[simp] theorem State.setErr_pkey (s : State) (e : ErrCode) : (s.setErr e).pkey = s.pkey := rfl
@[simp] theorem State.setErr_keymask (s : State) (e : ErrCode) : (s.setErr e).keymask = s.keymask := rfl
@[simp] theorem State.setErr_pnonce (s : State) (e : ErrCode) : (s.setErr e).pnonce = s.pnonce := rfl
@[simp] theorem State.setErr_noncemask (s : State) (e : ErrCode) : (s.setErr e).noncemask = s.noncemask := rfl
@[simp] theorem State.setErr_pctr (s : State) (e : ErrCode) : (s.setErr e).pctr = s.pctr := rfl
@[simp] theorem State.setErr_window (s : State) (e : ErrCode) : (s.setErr e).window = s.window := rfl
@[simp] theorem State.setErr_inReset (s : State) (e : ErrCode) : (s.setErr e).inReset = s.inReset := rfl
@[simp] theorem State.setErr_pending (s : State) (e : ErrCode) : (s.setErr e).pending = s.pending := rfl
@[simp] theorem State.setErr_response (s : State) (e : ErrCode) : (s.setErr e).response = s.response := rfl

@[simp] theorem State.respond_ws (s : State) (r : BusResponse) : (s.respond r).ws = s.ws := rfl
@[simp] theorem State.respond_key (s : State) (r : BusResponse) : (s.respond r).key = s.key := rfl
@[simp] theorem State.respond_nonce (s : State) (r : BusResponse) : (s.respond r).nonce = s.nonce := rfl
@[simp] theorem State.respond_ks (s : State) (r : BusResponse) : (s.respond r).ks = s.ks := rfl
@[simp] theorem State.respond_cursor (s : State) (r : BusResponse) : (s.respond r).cursor = s.cursor := rfl
@[simp] theorem State.respond_blkcnt (s : State) (r : BusResponse) : (s.respond r).blkcnt = s.blkcnt := rfl
@[simp] theorem State.respond_sctr (s : State) (r : BusResponse) : (s.respond r).sctr = s.sctr := rfl
@[simp] theorem State.respond_valid (s : State) (r : BusResponse) : (s.respond r).valid = s.valid := rfl
@[simp] theorem State.respond_exh (s : State) (r : BusResponse) : (s.respond r).exh = s.exh := rfl
@[simp] theorem State.respond_err (s : State) (r : BusResponse) : (s.respond r).err = s.err := rfl
@[simp] theorem State.respond_dout (s : State) (r : BusResponse) : (s.respond r).dout = s.dout := rfl
@[simp] theorem State.respond_pkey (s : State) (r : BusResponse) : (s.respond r).pkey = s.pkey := rfl
@[simp] theorem State.respond_keymask (s : State) (r : BusResponse) : (s.respond r).keymask = s.keymask := rfl
@[simp] theorem State.respond_pnonce (s : State) (r : BusResponse) : (s.respond r).pnonce = s.pnonce := rfl
@[simp] theorem State.respond_noncemask (s : State) (r : BusResponse) : (s.respond r).noncemask = s.noncemask := rfl
@[simp] theorem State.respond_pctr (s : State) (r : BusResponse) : (s.respond r).pctr = s.pctr := rfl
@[simp] theorem State.respond_window (s : State) (r : BusResponse) : (s.respond r).window = s.window := rfl
@[simp] theorem State.respond_inReset (s : State) (r : BusResponse) : (s.respond r).inReset = s.inReset := rfl
@[simp] theorem State.respond_pending (s : State) (r : BusResponse) : (s.respond r).pending = s.pending := rfl
@[simp] theorem State.respond_response (s : State) (r : BusResponse) : (s.respond r).response = some r := rfl

@[simp] theorem State.withPending_ws (s : State) (p : List Input) : (s.withPending p).ws = s.ws := rfl
@[simp] theorem State.withPending_key (s : State) (p : List Input) : (s.withPending p).key = s.key := rfl
@[simp] theorem State.withPending_nonce (s : State) (p : List Input) : (s.withPending p).nonce = s.nonce := rfl
@[simp] theorem State.withPending_ks (s : State) (p : List Input) : (s.withPending p).ks = s.ks := rfl
@[simp] theorem State.withPending_cursor (s : State) (p : List Input) : (s.withPending p).cursor = s.cursor := rfl
@[simp] theorem State.withPending_blkcnt (s : State) (p : List Input) : (s.withPending p).blkcnt = s.blkcnt := rfl
@[simp] theorem State.withPending_sctr (s : State) (p : List Input) : (s.withPending p).sctr = s.sctr := rfl
@[simp] theorem State.withPending_valid (s : State) (p : List Input) : (s.withPending p).valid = s.valid := rfl
@[simp] theorem State.withPending_exh (s : State) (p : List Input) : (s.withPending p).exh = s.exh := rfl
@[simp] theorem State.withPending_err (s : State) (p : List Input) : (s.withPending p).err = s.err := rfl
@[simp] theorem State.withPending_dout (s : State) (p : List Input) : (s.withPending p).dout = s.dout := rfl
@[simp] theorem State.withPending_pkey (s : State) (p : List Input) : (s.withPending p).pkey = s.pkey := rfl
@[simp] theorem State.withPending_keymask (s : State) (p : List Input) : (s.withPending p).keymask = s.keymask := rfl
@[simp] theorem State.withPending_pnonce (s : State) (p : List Input) : (s.withPending p).pnonce = s.pnonce := rfl
@[simp] theorem State.withPending_noncemask (s : State) (p : List Input) : (s.withPending p).noncemask = s.noncemask := rfl
@[simp] theorem State.withPending_pctr (s : State) (p : List Input) : (s.withPending p).pctr = s.pctr := rfl
@[simp] theorem State.withPending_window (s : State) (p : List Input) : (s.withPending p).window = s.window := rfl
@[simp] theorem State.withPending_inReset (s : State) (p : List Input) : (s.withPending p).inReset = s.inReset := rfl
@[simp] theorem State.withPending_pending (s : State) (p : List Input) : (s.withPending p).pending = p := rfl
@[simp] theorem State.withPending_response (s : State) (p : List Input) : (s.withPending p).response = s.response := rfl

@[simp] theorem State.releaseReset_ws (s : State) : (s.releaseReset).ws = s.ws := rfl
@[simp] theorem State.releaseReset_key (s : State) : (s.releaseReset).key = s.key := rfl
@[simp] theorem State.releaseReset_nonce (s : State) : (s.releaseReset).nonce = s.nonce := rfl
@[simp] theorem State.releaseReset_ks (s : State) : (s.releaseReset).ks = s.ks := rfl
@[simp] theorem State.releaseReset_cursor (s : State) : (s.releaseReset).cursor = s.cursor := rfl
@[simp] theorem State.releaseReset_blkcnt (s : State) : (s.releaseReset).blkcnt = s.blkcnt := rfl
@[simp] theorem State.releaseReset_sctr (s : State) : (s.releaseReset).sctr = s.sctr := rfl
@[simp] theorem State.releaseReset_valid (s : State) : (s.releaseReset).valid = s.valid := rfl
@[simp] theorem State.releaseReset_exh (s : State) : (s.releaseReset).exh = s.exh := rfl
@[simp] theorem State.releaseReset_err (s : State) : (s.releaseReset).err = s.err := rfl
@[simp] theorem State.releaseReset_dout (s : State) : (s.releaseReset).dout = s.dout := rfl
@[simp] theorem State.releaseReset_pkey (s : State) : (s.releaseReset).pkey = s.pkey := rfl
@[simp] theorem State.releaseReset_keymask (s : State) : (s.releaseReset).keymask = s.keymask := rfl
@[simp] theorem State.releaseReset_pnonce (s : State) : (s.releaseReset).pnonce = s.pnonce := rfl
@[simp] theorem State.releaseReset_noncemask (s : State) : (s.releaseReset).noncemask = s.noncemask := rfl
@[simp] theorem State.releaseReset_pctr (s : State) : (s.releaseReset).pctr = s.pctr := rfl
@[simp] theorem State.releaseReset_window (s : State) : (s.releaseReset).window = s.window := rfl
@[simp] theorem State.releaseReset_inReset (s : State) : (s.releaseReset).inReset = false := rfl
@[simp] theorem State.releaseReset_pending (s : State) : (s.releaseReset).pending = s.pending := rfl
@[simp] theorem State.releaseReset_response (s : State) : (s.releaseReset).response = s.response := rfl

@[simp] theorem State.stageKey_ws (s : State) (i : Fin 8) (v : Word) : (s.stageKey i v).ws = s.ws := rfl
@[simp] theorem State.stageKey_key (s : State) (i : Fin 8) (v : Word) : (s.stageKey i v).key = s.key := rfl
@[simp] theorem State.stageKey_nonce (s : State) (i : Fin 8) (v : Word) : (s.stageKey i v).nonce = s.nonce := rfl
@[simp] theorem State.stageKey_ks (s : State) (i : Fin 8) (v : Word) : (s.stageKey i v).ks = s.ks := rfl
@[simp] theorem State.stageKey_cursor (s : State) (i : Fin 8) (v : Word) : (s.stageKey i v).cursor = s.cursor := rfl
@[simp] theorem State.stageKey_blkcnt (s : State) (i : Fin 8) (v : Word) : (s.stageKey i v).blkcnt = s.blkcnt := rfl
@[simp] theorem State.stageKey_sctr (s : State) (i : Fin 8) (v : Word) : (s.stageKey i v).sctr = s.sctr := rfl
@[simp] theorem State.stageKey_valid (s : State) (i : Fin 8) (v : Word) : (s.stageKey i v).valid = s.valid := rfl
@[simp] theorem State.stageKey_exh (s : State) (i : Fin 8) (v : Word) : (s.stageKey i v).exh = s.exh := rfl
@[simp] theorem State.stageKey_err (s : State) (i : Fin 8) (v : Word) : (s.stageKey i v).err = s.err := rfl
@[simp] theorem State.stageKey_dout (s : State) (i : Fin 8) (v : Word) : (s.stageKey i v).dout = s.dout := rfl
@[simp] theorem State.stageKey_pkey (s : State) (i : Fin 8) (v : Word) : (s.stageKey i v).pkey = s.pkey.set i v := rfl
@[simp] theorem State.stageKey_keymask (s : State) (i : Fin 8) (v : Word) : (s.stageKey i v).keymask = s.keymask ||| (1#8 <<< i.val) := rfl
@[simp] theorem State.stageKey_pnonce (s : State) (i : Fin 8) (v : Word) : (s.stageKey i v).pnonce = s.pnonce := rfl
@[simp] theorem State.stageKey_noncemask (s : State) (i : Fin 8) (v : Word) : (s.stageKey i v).noncemask = s.noncemask := rfl
@[simp] theorem State.stageKey_pctr (s : State) (i : Fin 8) (v : Word) : (s.stageKey i v).pctr = s.pctr := rfl
@[simp] theorem State.stageKey_window (s : State) (i : Fin 8) (v : Word) : (s.stageKey i v).window = s.window := rfl
@[simp] theorem State.stageKey_inReset (s : State) (i : Fin 8) (v : Word) : (s.stageKey i v).inReset = s.inReset := rfl
@[simp] theorem State.stageKey_pending (s : State) (i : Fin 8) (v : Word) : (s.stageKey i v).pending = s.pending := rfl
@[simp] theorem State.stageKey_response (s : State) (i : Fin 8) (v : Word) : (s.stageKey i v).response = s.response := rfl

@[simp] theorem State.stageNonce_ws (s : State) (j : Fin 3) (v : Word) : (s.stageNonce j v).ws = s.ws := rfl
@[simp] theorem State.stageNonce_key (s : State) (j : Fin 3) (v : Word) : (s.stageNonce j v).key = s.key := rfl
@[simp] theorem State.stageNonce_nonce (s : State) (j : Fin 3) (v : Word) : (s.stageNonce j v).nonce = s.nonce := rfl
@[simp] theorem State.stageNonce_ks (s : State) (j : Fin 3) (v : Word) : (s.stageNonce j v).ks = s.ks := rfl
@[simp] theorem State.stageNonce_cursor (s : State) (j : Fin 3) (v : Word) : (s.stageNonce j v).cursor = s.cursor := rfl
@[simp] theorem State.stageNonce_blkcnt (s : State) (j : Fin 3) (v : Word) : (s.stageNonce j v).blkcnt = s.blkcnt := rfl
@[simp] theorem State.stageNonce_sctr (s : State) (j : Fin 3) (v : Word) : (s.stageNonce j v).sctr = s.sctr := rfl
@[simp] theorem State.stageNonce_valid (s : State) (j : Fin 3) (v : Word) : (s.stageNonce j v).valid = s.valid := rfl
@[simp] theorem State.stageNonce_exh (s : State) (j : Fin 3) (v : Word) : (s.stageNonce j v).exh = s.exh := rfl
@[simp] theorem State.stageNonce_err (s : State) (j : Fin 3) (v : Word) : (s.stageNonce j v).err = s.err := rfl
@[simp] theorem State.stageNonce_dout (s : State) (j : Fin 3) (v : Word) : (s.stageNonce j v).dout = s.dout := rfl
@[simp] theorem State.stageNonce_pkey (s : State) (j : Fin 3) (v : Word) : (s.stageNonce j v).pkey = s.pkey := rfl
@[simp] theorem State.stageNonce_keymask (s : State) (j : Fin 3) (v : Word) : (s.stageNonce j v).keymask = s.keymask := rfl
@[simp] theorem State.stageNonce_pnonce (s : State) (j : Fin 3) (v : Word) : (s.stageNonce j v).pnonce = s.pnonce.set j v := rfl
@[simp] theorem State.stageNonce_noncemask (s : State) (j : Fin 3) (v : Word) : (s.stageNonce j v).noncemask = s.noncemask ||| (1#3 <<< j.val) := rfl
@[simp] theorem State.stageNonce_pctr (s : State) (j : Fin 3) (v : Word) : (s.stageNonce j v).pctr = s.pctr := rfl
@[simp] theorem State.stageNonce_window (s : State) (j : Fin 3) (v : Word) : (s.stageNonce j v).window = s.window := rfl
@[simp] theorem State.stageNonce_inReset (s : State) (j : Fin 3) (v : Word) : (s.stageNonce j v).inReset = s.inReset := rfl
@[simp] theorem State.stageNonce_pending (s : State) (j : Fin 3) (v : Word) : (s.stageNonce j v).pending = s.pending := rfl
@[simp] theorem State.stageNonce_response (s : State) (j : Fin 3) (v : Word) : (s.stageNonce j v).response = s.response := rfl

@[simp] theorem State.stageCtrLo_ws (s : State) (v : Word) : (s.stageCtrLo v).ws = s.ws := rfl
@[simp] theorem State.stageCtrLo_key (s : State) (v : Word) : (s.stageCtrLo v).key = s.key := rfl
@[simp] theorem State.stageCtrLo_nonce (s : State) (v : Word) : (s.stageCtrLo v).nonce = s.nonce := rfl
@[simp] theorem State.stageCtrLo_ks (s : State) (v : Word) : (s.stageCtrLo v).ks = s.ks := rfl
@[simp] theorem State.stageCtrLo_cursor (s : State) (v : Word) : (s.stageCtrLo v).cursor = s.cursor := rfl
@[simp] theorem State.stageCtrLo_blkcnt (s : State) (v : Word) : (s.stageCtrLo v).blkcnt = s.blkcnt := rfl
@[simp] theorem State.stageCtrLo_sctr (s : State) (v : Word) : (s.stageCtrLo v).sctr = s.sctr := rfl
@[simp] theorem State.stageCtrLo_valid (s : State) (v : Word) : (s.stageCtrLo v).valid = s.valid := rfl
@[simp] theorem State.stageCtrLo_exh (s : State) (v : Word) : (s.stageCtrLo v).exh = s.exh := rfl
@[simp] theorem State.stageCtrLo_err (s : State) (v : Word) : (s.stageCtrLo v).err = s.err := rfl
@[simp] theorem State.stageCtrLo_dout (s : State) (v : Word) : (s.stageCtrLo v).dout = s.dout := rfl
@[simp] theorem State.stageCtrLo_pkey (s : State) (v : Word) : (s.stageCtrLo v).pkey = s.pkey := rfl
@[simp] theorem State.stageCtrLo_keymask (s : State) (v : Word) : (s.stageCtrLo v).keymask = s.keymask := rfl
@[simp] theorem State.stageCtrLo_pnonce (s : State) (v : Word) : (s.stageCtrLo v).pnonce = s.pnonce := rfl
@[simp] theorem State.stageCtrLo_noncemask (s : State) (v : Word) : (s.stageCtrLo v).noncemask = s.noncemask := rfl
@[simp] theorem State.stageCtrLo_pctr (s : State) (v : Word) : (s.stageCtrLo v).pctr = join64 (hi32 s.pctr) v := rfl
@[simp] theorem State.stageCtrLo_window (s : State) (v : Word) : (s.stageCtrLo v).window = s.window := rfl
@[simp] theorem State.stageCtrLo_inReset (s : State) (v : Word) : (s.stageCtrLo v).inReset = s.inReset := rfl
@[simp] theorem State.stageCtrLo_pending (s : State) (v : Word) : (s.stageCtrLo v).pending = s.pending := rfl
@[simp] theorem State.stageCtrLo_response (s : State) (v : Word) : (s.stageCtrLo v).response = s.response := rfl

@[simp] theorem State.stageCtrHi_ws (s : State) (v : Word) : (s.stageCtrHi v).ws = s.ws := rfl
@[simp] theorem State.stageCtrHi_key (s : State) (v : Word) : (s.stageCtrHi v).key = s.key := rfl
@[simp] theorem State.stageCtrHi_nonce (s : State) (v : Word) : (s.stageCtrHi v).nonce = s.nonce := rfl
@[simp] theorem State.stageCtrHi_ks (s : State) (v : Word) : (s.stageCtrHi v).ks = s.ks := rfl
@[simp] theorem State.stageCtrHi_cursor (s : State) (v : Word) : (s.stageCtrHi v).cursor = s.cursor := rfl
@[simp] theorem State.stageCtrHi_blkcnt (s : State) (v : Word) : (s.stageCtrHi v).blkcnt = s.blkcnt := rfl
@[simp] theorem State.stageCtrHi_sctr (s : State) (v : Word) : (s.stageCtrHi v).sctr = s.sctr := rfl
@[simp] theorem State.stageCtrHi_valid (s : State) (v : Word) : (s.stageCtrHi v).valid = s.valid := rfl
@[simp] theorem State.stageCtrHi_exh (s : State) (v : Word) : (s.stageCtrHi v).exh = s.exh := rfl
@[simp] theorem State.stageCtrHi_err (s : State) (v : Word) : (s.stageCtrHi v).err = s.err := rfl
@[simp] theorem State.stageCtrHi_dout (s : State) (v : Word) : (s.stageCtrHi v).dout = s.dout := rfl
@[simp] theorem State.stageCtrHi_pkey (s : State) (v : Word) : (s.stageCtrHi v).pkey = s.pkey := rfl
@[simp] theorem State.stageCtrHi_keymask (s : State) (v : Word) : (s.stageCtrHi v).keymask = s.keymask := rfl
@[simp] theorem State.stageCtrHi_pnonce (s : State) (v : Word) : (s.stageCtrHi v).pnonce = s.pnonce := rfl
@[simp] theorem State.stageCtrHi_noncemask (s : State) (v : Word) : (s.stageCtrHi v).noncemask = s.noncemask := rfl
@[simp] theorem State.stageCtrHi_pctr (s : State) (v : Word) : (s.stageCtrHi v).pctr = join64 v (lo32 s.pctr) := rfl
@[simp] theorem State.stageCtrHi_window (s : State) (v : Word) : (s.stageCtrHi v).window = s.window := rfl
@[simp] theorem State.stageCtrHi_inReset (s : State) (v : Word) : (s.stageCtrHi v).inReset = s.inReset := rfl
@[simp] theorem State.stageCtrHi_pending (s : State) (v : Word) : (s.stageCtrHi v).pending = s.pending := rfl
@[simp] theorem State.stageCtrHi_response (s : State) (v : Word) : (s.stageCtrHi v).response = s.response := rfl

@[simp] theorem State.buildCipher_ws (s : State) : (s.buildCipher).ws = workingState s.pkey s.pnonce s.pctr := rfl
@[simp] theorem State.buildCipher_key (s : State) : (s.buildCipher).key = s.pkey := rfl
@[simp] theorem State.buildCipher_nonce (s : State) : (s.buildCipher).nonce = s.pnonce := rfl
@[simp] theorem State.buildCipher_ks (s : State) : (s.buildCipher).ks = Vector.replicate 16 0#32 := rfl
@[simp] theorem State.buildCipher_cursor (s : State) : (s.buildCipher).cursor = 64 := rfl
@[simp] theorem State.buildCipher_blkcnt (s : State) : (s.buildCipher).blkcnt = s.pctr := rfl
@[simp] theorem State.buildCipher_sctr (s : State) : (s.buildCipher).sctr = s.pctr := rfl
@[simp] theorem State.buildCipher_valid (s : State) : (s.buildCipher).valid = true := rfl
@[simp] theorem State.buildCipher_exh (s : State) : (s.buildCipher).exh = false := rfl
@[simp] theorem State.buildCipher_err (s : State) : (s.buildCipher).err = s.err := rfl
@[simp] theorem State.buildCipher_dout (s : State) : (s.buildCipher).dout = 0#8 := rfl
@[simp] theorem State.buildCipher_pkey (s : State) : (s.buildCipher).pkey = s.pkey := rfl
@[simp] theorem State.buildCipher_keymask (s : State) : (s.buildCipher).keymask = s.keymask := rfl
@[simp] theorem State.buildCipher_pnonce (s : State) : (s.buildCipher).pnonce = s.pnonce := rfl
@[simp] theorem State.buildCipher_noncemask (s : State) : (s.buildCipher).noncemask = s.noncemask := rfl
@[simp] theorem State.buildCipher_pctr (s : State) : (s.buildCipher).pctr = s.pctr := rfl
@[simp] theorem State.buildCipher_window (s : State) : (s.buildCipher).window = s.window := rfl
@[simp] theorem State.buildCipher_inReset (s : State) : (s.buildCipher).inReset = s.inReset := rfl
@[simp] theorem State.buildCipher_pending (s : State) : (s.buildCipher).pending = s.pending := rfl
@[simp] theorem State.buildCipher_response (s : State) : (s.buildCipher).response = s.response := rfl

@[simp] theorem State.advance_ws (s : State) : (s.advance).ws = advanceWords s.ws := rfl
@[simp] theorem State.advance_key (s : State) : (s.advance).key = s.key := rfl
@[simp] theorem State.advance_nonce (s : State) : (s.advance).nonce = s.nonce := rfl
@[simp] theorem State.advance_ks (s : State) : (s.advance).ks = s.ks := rfl
@[simp] theorem State.advance_cursor (s : State) : (s.advance).cursor = s.cursor := rfl
@[simp] theorem State.advance_blkcnt (s : State) : (s.advance).blkcnt = s.blkcnt + 1#64 := rfl
@[simp] theorem State.advance_sctr (s : State) : (s.advance).sctr = s.sctr := rfl
@[simp] theorem State.advance_valid (s : State) : (s.advance).valid = s.valid := rfl
@[simp] theorem State.advance_exh (s : State) : (s.advance).exh = s.exh := rfl
@[simp] theorem State.advance_err (s : State) : (s.advance).err = s.err := rfl
@[simp] theorem State.advance_dout (s : State) : (s.advance).dout = s.dout := rfl
@[simp] theorem State.advance_pkey (s : State) : (s.advance).pkey = s.pkey := rfl
@[simp] theorem State.advance_keymask (s : State) : (s.advance).keymask = s.keymask := rfl
@[simp] theorem State.advance_pnonce (s : State) : (s.advance).pnonce = s.pnonce := rfl
@[simp] theorem State.advance_noncemask (s : State) : (s.advance).noncemask = s.noncemask := rfl
@[simp] theorem State.advance_pctr (s : State) : (s.advance).pctr = s.pctr := rfl
@[simp] theorem State.advance_window (s : State) : (s.advance).window = s.window := rfl
@[simp] theorem State.advance_inReset (s : State) : (s.advance).inReset = s.inReset := rfl
@[simp] theorem State.advance_pending (s : State) : (s.advance).pending = s.pending := rfl
@[simp] theorem State.advance_response (s : State) : (s.advance).response = s.response := rfl

@[simp] theorem State.exhaust_ws (s : State) : (s.exhaust).ws = s.ws := rfl
@[simp] theorem State.exhaust_key (s : State) : (s.exhaust).key = s.key := rfl
@[simp] theorem State.exhaust_nonce (s : State) : (s.exhaust).nonce = s.nonce := rfl
@[simp] theorem State.exhaust_ks (s : State) : (s.exhaust).ks = s.ks := rfl
@[simp] theorem State.exhaust_cursor (s : State) : (s.exhaust).cursor = s.cursor := rfl
@[simp] theorem State.exhaust_blkcnt (s : State) : (s.exhaust).blkcnt = s.blkcnt := rfl
@[simp] theorem State.exhaust_sctr (s : State) : (s.exhaust).sctr = s.sctr := rfl
@[simp] theorem State.exhaust_valid (s : State) : (s.exhaust).valid = s.valid := rfl
@[simp] theorem State.exhaust_exh (s : State) : (s.exhaust).exh = true := rfl
@[simp] theorem State.exhaust_err (s : State) : (s.exhaust).err = s.err := rfl
@[simp] theorem State.exhaust_dout (s : State) : (s.exhaust).dout = s.dout := rfl
@[simp] theorem State.exhaust_pkey (s : State) : (s.exhaust).pkey = s.pkey := rfl
@[simp] theorem State.exhaust_keymask (s : State) : (s.exhaust).keymask = s.keymask := rfl
@[simp] theorem State.exhaust_pnonce (s : State) : (s.exhaust).pnonce = s.pnonce := rfl
@[simp] theorem State.exhaust_noncemask (s : State) : (s.exhaust).noncemask = s.noncemask := rfl
@[simp] theorem State.exhaust_pctr (s : State) : (s.exhaust).pctr = s.pctr := rfl
@[simp] theorem State.exhaust_window (s : State) : (s.exhaust).window = s.window := rfl
@[simp] theorem State.exhaust_inReset (s : State) : (s.exhaust).inReset = s.inReset := rfl
@[simp] theorem State.exhaust_pending (s : State) : (s.exhaust).pending = s.pending := rfl
@[simp] theorem State.exhaust_response (s : State) : (s.exhaust).response = s.response := rfl

@[simp] theorem State.writeBlock_ws (s : State) (out : Vector Word 16) : (s.writeBlock out).ws = s.ws := rfl
@[simp] theorem State.writeBlock_key (s : State) (out : Vector Word 16) : (s.writeBlock out).key = s.key := rfl
@[simp] theorem State.writeBlock_nonce (s : State) (out : Vector Word 16) : (s.writeBlock out).nonce = s.nonce := rfl
@[simp] theorem State.writeBlock_ks (s : State) (out : Vector Word 16) : (s.writeBlock out).ks = out := rfl
@[simp] theorem State.writeBlock_cursor (s : State) (out : Vector Word 16) : (s.writeBlock out).cursor = s.cursor := rfl
@[simp] theorem State.writeBlock_blkcnt (s : State) (out : Vector Word 16) : (s.writeBlock out).blkcnt = s.blkcnt := rfl
@[simp] theorem State.writeBlock_sctr (s : State) (out : Vector Word 16) : (s.writeBlock out).sctr = s.sctr := rfl
@[simp] theorem State.writeBlock_valid (s : State) (out : Vector Word 16) : (s.writeBlock out).valid = s.valid := rfl
@[simp] theorem State.writeBlock_exh (s : State) (out : Vector Word 16) : (s.writeBlock out).exh = s.exh := rfl
@[simp] theorem State.writeBlock_err (s : State) (out : Vector Word 16) : (s.writeBlock out).err = s.err := rfl
@[simp] theorem State.writeBlock_dout (s : State) (out : Vector Word 16) : (s.writeBlock out).dout = s.dout := rfl
@[simp] theorem State.writeBlock_pkey (s : State) (out : Vector Word 16) : (s.writeBlock out).pkey = s.pkey := rfl
@[simp] theorem State.writeBlock_keymask (s : State) (out : Vector Word 16) : (s.writeBlock out).keymask = s.keymask := rfl
@[simp] theorem State.writeBlock_pnonce (s : State) (out : Vector Word 16) : (s.writeBlock out).pnonce = s.pnonce := rfl
@[simp] theorem State.writeBlock_noncemask (s : State) (out : Vector Word 16) : (s.writeBlock out).noncemask = s.noncemask := rfl
@[simp] theorem State.writeBlock_pctr (s : State) (out : Vector Word 16) : (s.writeBlock out).pctr = s.pctr := rfl
@[simp] theorem State.writeBlock_window (s : State) (out : Vector Word 16) : (s.writeBlock out).window = s.window := rfl
@[simp] theorem State.writeBlock_inReset (s : State) (out : Vector Word 16) : (s.writeBlock out).inReset = s.inReset := rfl
@[simp] theorem State.writeBlock_pending (s : State) (out : Vector Word 16) : (s.writeBlock out).pending = s.pending := rfl
@[simp] theorem State.writeBlock_response (s : State) (out : Vector Word 16) : (s.writeBlock out).response = s.response := rfl

@[simp] theorem State.consume_ws (s : State) (din : Byte) (p : Fin 64) : (s.consume din p).ws = s.ws := rfl
@[simp] theorem State.consume_key (s : State) (din : Byte) (p : Fin 64) : (s.consume din p).key = s.key := rfl
@[simp] theorem State.consume_nonce (s : State) (din : Byte) (p : Fin 64) : (s.consume din p).nonce = s.nonce := rfl
@[simp] theorem State.consume_ks (s : State) (din : Byte) (p : Fin 64) : (s.consume din p).ks = s.ks := rfl
@[simp] theorem State.consume_cursor (s : State) (din : Byte) (p : Fin 64) : (s.consume din p).cursor = p.succ := rfl
@[simp] theorem State.consume_blkcnt (s : State) (din : Byte) (p : Fin 64) : (s.consume din p).blkcnt = s.blkcnt := rfl
@[simp] theorem State.consume_sctr (s : State) (din : Byte) (p : Fin 64) : (s.consume din p).sctr = s.sctr := rfl
@[simp] theorem State.consume_valid (s : State) (din : Byte) (p : Fin 64) : (s.consume din p).valid = s.valid := rfl
@[simp] theorem State.consume_exh (s : State) (din : Byte) (p : Fin 64) : (s.consume din p).exh = s.exh := rfl
@[simp] theorem State.consume_err (s : State) (din : Byte) (p : Fin 64) : (s.consume din p).err = s.err := rfl
@[simp] theorem State.consume_dout (s : State) (din : Byte) (p : Fin 64) : (s.consume din p).dout = din ^^^ ksByte s.ks p := rfl
@[simp] theorem State.consume_pkey (s : State) (din : Byte) (p : Fin 64) : (s.consume din p).pkey = s.pkey := rfl
@[simp] theorem State.consume_keymask (s : State) (din : Byte) (p : Fin 64) : (s.consume din p).keymask = s.keymask := rfl
@[simp] theorem State.consume_pnonce (s : State) (din : Byte) (p : Fin 64) : (s.consume din p).pnonce = s.pnonce := rfl
@[simp] theorem State.consume_noncemask (s : State) (din : Byte) (p : Fin 64) : (s.consume din p).noncemask = s.noncemask := rfl
@[simp] theorem State.consume_pctr (s : State) (din : Byte) (p : Fin 64) : (s.consume din p).pctr = s.pctr := rfl
@[simp] theorem State.consume_window (s : State) (din : Byte) (p : Fin 64) : (s.consume din p).window = s.window := rfl
@[simp] theorem State.consume_inReset (s : State) (din : Byte) (p : Fin 64) : (s.consume din p).inReset = s.inReset := rfl
@[simp] theorem State.consume_pending (s : State) (din : Byte) (p : Fin 64) : (s.consume din p).pending = s.pending := rfl
@[simp] theorem State.consume_response (s : State) (din : Byte) (p : Fin 64) : (s.consume din p).response = s.response := rfl

@[simp] theorem State.assertReset_ws (s : State) : (s.assertReset).ws = State.reset.ws := rfl
@[simp] theorem State.assertReset_key (s : State) : (s.assertReset).key = State.reset.key := rfl
@[simp] theorem State.assertReset_nonce (s : State) : (s.assertReset).nonce = State.reset.nonce := rfl
@[simp] theorem State.assertReset_ks (s : State) : (s.assertReset).ks = State.reset.ks := rfl
@[simp] theorem State.assertReset_cursor (s : State) : (s.assertReset).cursor = State.reset.cursor := rfl
@[simp] theorem State.assertReset_blkcnt (s : State) : (s.assertReset).blkcnt = State.reset.blkcnt := rfl
@[simp] theorem State.assertReset_sctr (s : State) : (s.assertReset).sctr = State.reset.sctr := rfl
@[simp] theorem State.assertReset_valid (s : State) : (s.assertReset).valid = State.reset.valid := rfl
@[simp] theorem State.assertReset_exh (s : State) : (s.assertReset).exh = State.reset.exh := rfl
@[simp] theorem State.assertReset_err (s : State) : (s.assertReset).err = State.reset.err := rfl
@[simp] theorem State.assertReset_dout (s : State) : (s.assertReset).dout = State.reset.dout := rfl
@[simp] theorem State.assertReset_pkey (s : State) : (s.assertReset).pkey = State.reset.pkey := rfl
@[simp] theorem State.assertReset_keymask (s : State) : (s.assertReset).keymask = State.reset.keymask := rfl
@[simp] theorem State.assertReset_pnonce (s : State) : (s.assertReset).pnonce = State.reset.pnonce := rfl
@[simp] theorem State.assertReset_noncemask (s : State) : (s.assertReset).noncemask = State.reset.noncemask := rfl
@[simp] theorem State.assertReset_pctr (s : State) : (s.assertReset).pctr = State.reset.pctr := rfl
@[simp] theorem State.assertReset_window (s : State) : (s.assertReset).window = s.window := rfl
@[simp] theorem State.assertReset_inReset (s : State) : (s.assertReset).inReset = true := rfl
@[simp] theorem State.assertReset_pending (s : State) : (s.assertReset).pending = s.pending := rfl
@[simp] theorem State.assertReset_response (s : State) : (s.assertReset).response = s.response := rfl

@[simp] theorem State.withCommand_ws (s : State) (w : Word) : (s.withCommand w).ws = s.ws := rfl
@[simp] theorem State.withCommand_key (s : State) (w : Word) : (s.withCommand w).key = s.key := rfl
@[simp] theorem State.withCommand_nonce (s : State) (w : Word) : (s.withCommand w).nonce = s.nonce := rfl
@[simp] theorem State.withCommand_ks (s : State) (w : Word) : (s.withCommand w).ks = s.ks := rfl
@[simp] theorem State.withCommand_cursor (s : State) (w : Word) : (s.withCommand w).cursor = s.cursor := rfl
@[simp] theorem State.withCommand_blkcnt (s : State) (w : Word) : (s.withCommand w).blkcnt = s.blkcnt := rfl
@[simp] theorem State.withCommand_sctr (s : State) (w : Word) : (s.withCommand w).sctr = s.sctr := rfl
@[simp] theorem State.withCommand_valid (s : State) (w : Word) : (s.withCommand w).valid = s.valid := rfl
@[simp] theorem State.withCommand_exh (s : State) (w : Word) : (s.withCommand w).exh = s.exh := rfl
@[simp] theorem State.withCommand_err (s : State) (w : Word) : (s.withCommand w).err = s.err := rfl
@[simp] theorem State.withCommand_dout (s : State) (w : Word) : (s.withCommand w).dout = s.dout := rfl
@[simp] theorem State.withCommand_pkey (s : State) (w : Word) : (s.withCommand w).pkey = s.pkey := rfl
@[simp] theorem State.withCommand_keymask (s : State) (w : Word) : (s.withCommand w).keymask = s.keymask := rfl
@[simp] theorem State.withCommand_pnonce (s : State) (w : Word) : (s.withCommand w).pnonce = s.pnonce := rfl
@[simp] theorem State.withCommand_noncemask (s : State) (w : Word) : (s.withCommand w).noncemask = s.noncemask := rfl
@[simp] theorem State.withCommand_pctr (s : State) (w : Word) : (s.withCommand w).pctr = s.pctr := rfl
@[simp] theorem State.withCommand_window (s : State) (w : Word) : (s.withCommand w).window = s.window := rfl
@[simp] theorem State.withCommand_inReset (s : State) (w : Word) : (s.withCommand w).inReset = false := rfl
@[simp] theorem State.withCommand_pending (s : State) (w : Word) : (s.withCommand w).pending = .access (.write (s.base + Reg.cmd.offset) (.b32 w)) :: s.pending := rfl
@[simp] theorem State.withCommand_response (s : State) (w : Word) : (s.withCommand w).response = s.response := rfl

@[simp] theorem State.setErr_base (s : State) (e : ErrCode) : (s.setErr e).base = s.base := rfl
@[simp] theorem State.respond_base (s : State) (r : BusResponse) : (s.respond r).base = s.base := rfl
@[simp] theorem State.withPending_base (s : State) (p : List Input) : (s.withPending p).base = s.base := rfl
@[simp] theorem State.releaseReset_base (s : State) : (s.releaseReset).base = s.base := rfl
@[simp] theorem State.stageKey_base (s : State) (i : Fin 8) (v : Word) : (s.stageKey i v).base = s.base := rfl
@[simp] theorem State.stageNonce_base (s : State) (j : Fin 3) (v : Word) : (s.stageNonce j v).base = s.base := rfl
@[simp] theorem State.stageCtrLo_base (s : State) (v : Word) : (s.stageCtrLo v).base = s.base := rfl
@[simp] theorem State.stageCtrHi_base (s : State) (v : Word) : (s.stageCtrHi v).base = s.base := rfl
@[simp] theorem State.buildCipher_base (s : State) : (s.buildCipher).base = s.base := rfl
@[simp] theorem State.advance_base (s : State) : (s.advance).base = s.base := rfl
@[simp] theorem State.exhaust_base (s : State) : (s.exhaust).base = s.base := rfl
@[simp] theorem State.writeBlock_base (s : State) (out : Vector Word 16) : (s.writeBlock out).base = s.base := rfl
@[simp] theorem State.consume_base (s : State) (din : Byte) (p : Fin 64) : (s.consume din p).base = s.base := rfl
@[simp] theorem State.assertReset_base (s : State) : (s.assertReset).base = s.base := rfl
@[simp] theorem State.withCommand_base (s : State) (w : Word) : (s.withCommand w).base = s.base := rfl

end Sys2Proof.Machine
end

