-- ==== Sys2Proof/Laws/Bits.lean ====
section
/-! SUPPORT. Lemmas on the bit fields, the rotations and the byte order of Machine/Bits.lean. -/

namespace Sys2Proof.Machine

@[simp] theorem lo32_toNat (c : Word64) : (lo32 c).toNat = c.toNat % 2 ^ 32 := by
  simp [lo32]

@[simp] theorem hi32_toNat (c : Word64) : (hi32 c).toNat = c.toNat / 2 ^ 32 := by
  have := c.isLt
  simp only [hi32, BitVec.extractLsb'_toNat, Nat.shiftRight_eq_div_pow]
  omega

theorem join64_toNat (h l : Word) : (join64 h l).toNat = h.toNat * 2 ^ 32 + l.toNat := by
  have := l.isLt
  simp only [join64, BitVec.toNat_append, Nat.shiftLeft_eq]
  rw [Nat.mul_comm, Nat.two_pow_add_eq_or_of_lt this]

@[simp] theorem lo32_join64 (h l : Word) : lo32 (join64 h l) = l := by
  apply BitVec.eq_of_toNat_eq
  have := l.isLt
  rw [lo32_toNat, join64_toNat]
  omega

@[simp] theorem hi32_join64 (h l : Word) : hi32 (join64 h l) = h := by
  apply BitVec.eq_of_toNat_eq
  have := l.isLt
  rw [hi32_toNat, join64_toNat]
  omega

/-- A 64-bit counter is its two halves (20_memory.md R47). -/
@[simp] theorem join64_hi32_lo32 (c : Word64) : join64 (hi32 c) (lo32 c) = c := by
  apply BitVec.eq_of_toNat_eq
  rw [join64_toNat, hi32_toNat, lo32_toNat]
  omega

/-- The low half of the next counter (41_block_transform.md R92). -/
theorem lo32_succ (c : Word64) : lo32 (c + 1#64) = lo32 c + 1#32 := by
  apply BitVec.eq_of_toNat_eq
  simp only [lo32_toNat, BitVec.toNat_add, BitVec.toNat_ofNat]
  omega

/-- The high half of the next counter: the carry out of the low half (41_block_transform.md R92). -/
theorem hi32_succ (c : Word64) :
    hi32 (c + 1#64) = if lo32 c + 1#32 = 0#32 then hi32 c + 1#32 else hi32 c := by
  have hc := c.isLt
  have hz : (lo32 c + 1#32 = 0#32) ↔ (c.toNat % 2 ^ 32 + 1) % 2 ^ 32 = 0 := by
    rw [← BitVec.toNat_inj]
    simp only [BitVec.toNat_add, lo32_toNat, BitVec.toNat_ofNat]
  by_cases h : lo32 c + 1#32 = 0#32
  · rw [if_pos h]
    rw [hz] at h
    apply BitVec.eq_of_toNat_eq
    simp only [hi32_toNat, BitVec.toNat_add, BitVec.toNat_ofNat]
    omega
  · rw [if_neg h]
    rw [hz] at h
    apply BitVec.eq_of_toNat_eq
    simp only [hi32_toNat, BitVec.toNat_add, BitVec.toNat_ofNat]
    omega

/-- The low byte of a zero-extended byte is the byte: what a host takes from a read of DOUT. -/
@[simp] theorem byteOf_zext32 (b : Byte) : byteOf (zext32 b) 0 = b := by
  apply BitVec.eq_of_getLsbD_eq
  intro i hi
  simp [byteOf, zext32, hi]
  intros
  omega

theorem byteOf_toNat (v : Word) (k : Nat) : (byteOf v k).toNat = v.toNat / 2 ^ (8 * k) % 256 := by
  simp [byteOf, Nat.shiftRight_eq_div_pow]

theorem le32_getLsbD (b0 b1 b2 b3 : Byte) (i : Nat) :
    (le32 b0 b1 b2 b3).getLsbD i =
      if i < 8 then b0.getLsbD i else if i < 16 then b1.getLsbD (i - 8)
      else if i < 24 then b2.getLsbD (i - 16) else if i < 32 then b3.getLsbD (i - 24) else false := by
  simp only [le32, zext32, BitVec.getLsbD_or, BitVec.getLsbD_shiftLeft, BitVec.getLsbD_setWidth]
  have h0 : 8 ≤ i → b0.getLsbD i = false := BitVec.getLsbD_of_ge b0 i
  have h1 : 8 ≤ i - 8 → b1.getLsbD (i - 8) = false := BitVec.getLsbD_of_ge b1 (i - 8)
  have h2 : 8 ≤ i - 16 → b2.getLsbD (i - 16) = false := BitVec.getLsbD_of_ge b2 (i - 16)
  have h3 : 8 ≤ i - 24 → b3.getLsbD (i - 24) = false := BitVec.getLsbD_of_ge b3 (i - 24)
  by_cases c0 : i < 8
  · have e : i < 32 := by omega
    have e1 : i < 16 := by omega
    have e2 : i < 24 := by omega
    simp [c0, e, e1, e2]
  · by_cases c1 : i < 16
    · have e : i < 32 := by omega
      have e2 : i < 24 := by omega
      simp [c0, c1, e, e2, h0 (by omega)]
      intros; omega
    · by_cases c2 : i < 24
      · have e : i < 32 := by omega
        simp [c0, c1, c2, e, h0 (by omega), h1 (by omega)]
        intros; omega
      · by_cases c3 : i < 32
        · simp [c0, c1, c2, c3, h0 (by omega), h1 (by omega), h2 (by omega)]
          intros; omega
        · simp [c0, c1, c2, c3]

/-- Packing the bytes of a word gives the word (00_scope.md R11). -/
theorem le32_byteOf (v : Word) : le32 (byteOf v 0) (byteOf v 1) (byteOf v 2) (byteOf v 3) = v := by
  apply BitVec.eq_of_getLsbD_eq
  intro i hi
  rw [le32_getLsbD]
  simp only [byteOf, BitVec.getLsbD_extractLsb']
  by_cases c0 : i < 8
  · simp [c0]
  · by_cases c1 : i < 16
    · simp [c0, c1, show i - 8 < 8 by omega, show 8 + (i - 8) = i by omega]
    · by_cases c2 : i < 24
      · simp [c0, c1, c2, show i - 16 < 8 by omega, show 16 + (i - 16) = i by omega]
      · simp [c0, c1, c2, hi, show i - 24 < 8 by omega, show 24 + (i - 24) = i by omega]

/-- Byte `k` of a packed word is the byte packed there (00_scope.md R11). -/
theorem byteOf_le32 (b0 b1 b2 b3 : Byte) :
    byteOf (le32 b0 b1 b2 b3) 0 = b0 ∧ byteOf (le32 b0 b1 b2 b3) 1 = b1 ∧
      byteOf (le32 b0 b1 b2 b3) 2 = b2 ∧ byteOf (le32 b0 b1 b2 b3) 3 = b3 := by
  refine ⟨?_, ?_, ?_, ?_⟩ <;>
    (apply BitVec.eq_of_getLsbD_eq
     intro i hi
     simp only [byteOf, BitVec.getLsbD_extractLsb', le32_getLsbD])
  · simp [hi]
  · simp [hi, show ¬ (8 + i < 8) by omega, show 8 + i < 16 by omega, show 8 + i - 8 = i by omega]
  · simp [hi, show ¬ (16 + i < 8) by omega, show ¬ (16 + i < 16) by omega, show 16 + i < 24 by omega,
      show 16 + i - 16 = i by omega]
  · simp [hi, show ¬ (24 + i < 8) by omega, show ¬ (24 + i < 16) by omega, show ¬ (24 + i < 24) by omega,
      show 24 + i < 32 by omega, show 24 + i - 24 = i by omega]

/-- `rotl32` is the left rotation of bit vectors for the amounts the core uses (00_scope.md R10). -/
theorem rotl32_eq_rotateLeft (v : Word) {n : Nat} (_ : 0 < n) (h : n < 32) : rotl32 v n = v.rotateLeft n := by
  rw [BitVec.rotateLeft_def, Nat.mod_eq_of_lt h]
  rfl

end Sys2Proof.Machine
end

