-- ==== Sys2Proof/Laws/Commands.lean ====
section
/-! SUPPORT. Everything a command can do, said once: `Effect i s t` lists the ways `exec i` can take `s` to `t`, and
`exec_iff` says that there are no others. Later proofs cite it and never unfold a meaning. -/

namespace Sys2Proof.Machine

/-- A block generation that is not refused, from `s` to `t` (41_block_transform.md R94). -/
inductive Generation (s : State) : State → Prop where
  | advance (he : s.exh = false) (hc : s.blkcnt ≠ 0xFFFFFFFFFFFFFFFF#64) :
      Generation s (s.writeBlock (block s.ws)).advance
  | exhaust (he : s.exh = false) (hc : s.blkcnt = 0xFFFFFFFFFFFFFFFF#64) :
      Generation s (s.writeBlock (block s.ws)).exhaust

theorem genBlock_error_iff {s : State} {e : ErrCode} :
    genBlock s = .error e ↔ s.exh = true ∧ e = .counterExhausted := by
  unfold genBlock
  cases s.exh <;> by_cases hc : s.atCounterEnd <;> simp [hc, eq_comm]

theorem genBlock_ok_iff {s t : State} : genBlock s = .ok t ↔ Generation s t := by
  constructor
  · intro h
    unfold genBlock at h
    cases he : s.exh
    · by_cases hc : s.atCounterEnd
      · simp only [he, hc, Bool.false_eq_true, if_false, if_true, Except.ok.injEq] at h
        subst h
        exact .exhaust he (by simpa [State.atCounterEnd] using hc)
      · simp only [he, hc, Bool.false_eq_true, if_false, Except.ok.injEq] at h
        subst h
        exact .advance he (by simpa [State.atCounterEnd] using hc)
    · simp [he] at h
  · rintro (⟨he, hc⟩ | ⟨he, hc⟩) <;> simp [genBlock, he, State.atCounterEnd, hc]

/-- What a command can do (40_init.md R72, 41_block_transform.md R95, 42_stream_xor.md R102). -/
inductive Effect : Instr → State → State → Prop where
  | initNoKey {s} (hk : s.keymask ≠ 0xFF#8) : Effect .init s (s.setErr .invalidKeyLength)
  | initNoNonce {s} (hk : s.keymask = 0xFF#8) (hn : s.noncemask ≠ 0x7#3) :
      Effect .init s (s.setErr .invalidNonceLength)
  | initDone {s} (hk : s.keymask = 0xFF#8) (hn : s.noncemask = 0x7#3) : Effect .init s (s.buildCipher.setErr .ok)
  | nextblkInvalid {s} (hv : s.valid = false) : Effect .nextblk s (s.setErr .notInitialized)
  | nextblkExhausted {s} (hv : s.valid = true) (he : s.exh = true) : Effect .nextblk s (s.setErr .counterExhausted)
  | nextblkDone {s t} (hv : s.valid = true) (hg : Generation s t) : Effect .nextblk s (t.setErr .ok)
  | xorInvalid {s} (d : Byte) (hv : s.valid = false) : Effect (.xor d) s (s.setErr .notInitialized)
  | xorExhausted {s} (d : Byte) (hv : s.valid = true) (hc : s.cursor.val = 64) (he : s.exh = true) :
      Effect (.xor d) s (s.setErr .counterExhausted)
  | xorNewBlock {s t} (d : Byte) (hv : s.valid = true) (hc : s.cursor.val = 64) (hg : Generation s t) :
      Effect (.xor d) s ((t.consume d 0).setErr .ok)
  | xorInBlock {s} (d : Byte) (hv : s.valid = true) (p : Fin 64) (hp : s.cursor.val = p.val) :
      Effect (.xor d) s ((s.consume d p).setErr .ok)

theorem finish_next {s t : State} {r : Except ErrCode State} (h : finish s r = .next t) :
    (∃ u, r = .ok u ∧ t = u.setErr .ok) ∨ ∃ e, r = .error e ∧ t = s.setErr e := by
  cases r with
  | ok u => exact .inl ⟨u, rfl, by simpa [finish] using h.symm⟩
  | error e => exact .inr ⟨e, rfl, by simpa [finish, raise] using h.symm⟩

theorem finish_ok (s t : State) : finish s (.ok t) = .next (t.setErr .ok) := rfl

theorem finish_error (s : State) (e : ErrCode) : finish s (.error e) = .next (s.setErr e) := rfl

theorem exec_of_effect {i : Instr} {s t : State} (h : Effect i s t) : exec i s = .next t := by
  cases h with
  | initNoKey hk => simp [exec, execInit, initResult, State.keySupplied, hk, finish_error]
  | initNoNonce hk hn => simp [exec, execInit, initResult, State.keySupplied, State.nonceSupplied, hk, hn, finish_error]
  | initDone hk hn => simp [exec, execInit, initResult, State.keySupplied, State.nonceSupplied, hk, hn, finish_ok]
  | nextblkInvalid hv => simp [exec, execNextblk, nextblkResult, hv, finish_error]
  | nextblkExhausted hv he =>
    simp [exec, execNextblk, nextblkResult, hv, genBlock_error_iff.2 ⟨he, rfl⟩, finish_error]
  | nextblkDone hv hg => simp [exec, execNextblk, nextblkResult, hv, genBlock_ok_iff.2 hg, finish_ok]
  | xorInvalid d hv => simp [exec, execXor, xorResult, hv, finish_error]
  | xorExhausted d hv hc he => simp [exec, execXor, xorResult, hv, hc, genBlock_error_iff.2 ⟨he, rfl⟩, finish_error]
  | xorNewBlock d hv hc hg => simp [exec, execXor, xorResult, hv, hc, genBlock_ok_iff.2 hg, finish_ok]
  | xorInBlock d hv p hp =>
    have hne : s.cursor.val ≠ 64 := by have := p.isLt; omega
    have hpe : (⟨s.cursor.val, by omega⟩ : Fin 64) = p := Fin.ext hp
    simp [exec, execXor, xorResult, hv, hne, hpe, finish_ok]

/-- Every command ends, in one of the ways `Effect` lists. -/
theorem exists_effect (i : Instr) (s : State) : ∃ t, Effect i s t := by
  cases i with
  | init =>
    by_cases hk : s.keymask = 0xFF#8
    · by_cases hn : s.noncemask = 0x7#3
      · exact ⟨_, .initDone hk hn⟩
      · exact ⟨_, .initNoNonce hk hn⟩
    · exact ⟨_, .initNoKey hk⟩
  | nextblk =>
    cases hv : s.valid with
    | false => exact ⟨_, .nextblkInvalid hv⟩
    | true =>
      cases he : s.exh with
      | true => exact ⟨_, .nextblkExhausted hv he⟩
      | false =>
        by_cases hc : s.blkcnt = 0xFFFFFFFFFFFFFFFF#64
        · exact ⟨_, .nextblkDone hv (.exhaust he hc)⟩
        · exact ⟨_, .nextblkDone hv (.advance he hc)⟩
  | xor d =>
    cases hv : s.valid with
    | false => exact ⟨_, .xorInvalid d hv⟩
    | true =>
      by_cases hp : s.cursor.val = 64
      · cases he : s.exh with
        | true => exact ⟨_, .xorExhausted d hv hp he⟩
        | false =>
          by_cases hc : s.blkcnt = 0xFFFFFFFFFFFFFFFF#64
          · exact ⟨_, .xorNewBlock d hv hp (.exhaust he hc)⟩
          · exact ⟨_, .xorNewBlock d hv hp (.advance he hc)⟩
      · exact ⟨_, .xorInBlock d hv ⟨s.cursor.val, by omega⟩ rfl⟩

/-- `exec i` takes `s` to `t` in exactly the ways `Effect` lists. -/
theorem exec_iff {i : Instr} {s t : State} : exec i s = .next t ↔ Effect i s t := by
  constructor
  · intro h
    obtain ⟨u, hu⟩ := exists_effect i s
    rw [exec_of_effect hu] at h
    cases h
    exact hu
  · exact exec_of_effect

/-- Every command answers a next state (00_scope.md R13). -/
theorem exec_next (i : Instr) (s : State) : ∃ t, exec i s = .next t :=
  (exists_effect i s).imp fun _ => exec_of_effect

/-- What no command writes: the staging registers and their masks (40_init.md R78), and the model's own fields. -/
structure SameOutside (s t : State) : Prop where
  pkey : t.pkey = s.pkey
  keymask : t.keymask = s.keymask
  pnonce : t.pnonce = s.pnonce
  noncemask : t.noncemask = s.noncemask
  pctr : t.pctr = s.pctr
  window : t.window = s.window
  inReset : t.inReset = s.inReset
  pending : t.pending = s.pending
  response : t.response = s.response

theorem exec_sameOutside {i : Instr} {s t : State} (h : exec i s = .next t) : SameOutside s t := by
  rw [exec_iff] at h
  cases h with
  | nextblkDone hv hg => cases hg <;> constructor <;> rfl
  | xorNewBlock d hv hc hg => cases hg <;> constructor <;> rfl
  | _ => constructor <;> rfl

/-- Commands neither read nor write the model's own fields: they commute with any change of them. -/
theorem exec_outside {i : Instr} {s t : State} (h : exec i s = .next t) (w : Nat) (z : Bool) (p : List Input)
    (r : Option BusResponse) :
    exec i { s with window := w, inReset := z, pending := p, response := r } =
      .next { t with window := w, inReset := z, pending := p, response := r } := by
  rw [exec_iff] at h
  apply exec_of_effect
  cases h with
  | initNoKey hk => exact .initNoKey (s := { s with window := w, inReset := z, pending := p, response := r }) hk
  | initNoNonce hk hn =>
    exact .initNoNonce (s := { s with window := w, inReset := z, pending := p, response := r }) hk hn
  | initDone hk hn => exact .initDone (s := { s with window := w, inReset := z, pending := p, response := r }) hk hn
  | nextblkInvalid hv =>
    exact .nextblkInvalid (s := { s with window := w, inReset := z, pending := p, response := r }) hv
  | nextblkExhausted hv he =>
    exact .nextblkExhausted (s := { s with window := w, inReset := z, pending := p, response := r }) hv he
  | nextblkDone hv hg =>
    cases hg with
    | advance he hc =>
      exact .nextblkDone (s := { s with window := w, inReset := z, pending := p, response := r }) hv (.advance he hc)
    | exhaust he hc =>
      exact .nextblkDone (s := { s with window := w, inReset := z, pending := p, response := r }) hv (.exhaust he hc)
  | xorInvalid d hv =>
    exact .xorInvalid (s := { s with window := w, inReset := z, pending := p, response := r }) d hv
  | xorExhausted d hv hc he =>
    exact .xorExhausted (s := { s with window := w, inReset := z, pending := p, response := r }) d hv hc he
  | xorNewBlock d hv hc hg =>
    cases hg with
    | advance he hc' =>
      exact .xorNewBlock (s := { s with window := w, inReset := z, pending := p, response := r }) d hv hc
        (.advance he hc')
    | exhaust he hc' =>
      exact .xorNewBlock (s := { s with window := w, inReset := z, pending := p, response := r }) d hv hc
        (.exhaust he hc')
  | xorInBlock d hv q hp =>
    exact .xorInBlock (s := { s with window := w, inReset := z, pending := p, response := r }) d hv q hp

end Sys2Proof.Machine
end

