-- ==== Sys2Proof/Laws/Block.lean ====
section
/-! SUPPORT. Lemmas on the quarter-round, the working state and the counter advance. -/

namespace Sys2Proof.Machine

/-- The counter advance keeps the working state that of `BLKCNT` (41_block_transform.md R92, R98). -/
theorem advanceWords_workingState (k : Vector Word 8) (n : Vector Word 3) (c : Word64) :
    advanceWords (workingState k n c) = workingState k n (c + 1#64) := by
  unfold advanceWords
  simp only [workingState, lo32_succ, hi32_succ]
  by_cases h : lo32 c + 1#32 = 0#32
  · simp [h, BitVec.add_assoc]
  · simp [h]

theorem advanceWords_twelve (ws : Vector Word 16) : (advanceWords ws)[12] = ws[12] + 1#32 := by
  simp only [advanceWords]
  split <;> simp

theorem advanceWords_thirteen (ws : Vector Word 16) :
    (advanceWords ws)[13] = if ws[12] + 1#32 = 0#32 then ws[13] + 1#32 else ws[13] := by
  simp only [advanceWords]
  split <;> rename_i h <;> simp at h ⊢ <;> simp [h]

/-- No other word of the working state changes (41_block_transform.md R92). -/
theorem advanceWords_other (ws : Vector Word 16) {i : Nat} (hi : i < 16) (h12 : i ≠ 12) (h13 : i ≠ 13) :
    (advanceWords ws)[i] = ws[i] := by
  simp only [advanceWords]
  split
  · rw [Vector.getElem_set_ne _ _ (by omega), Vector.getElem_set_ne _ _ (by omega)]
  · rw [Vector.getElem_set_ne _ _ (by omega)]

theorem block_getElem (ws : Vector Word 16) {i : Nat} (h : i < 16) :
    (block ws)[i] = (doubleRounds 10 ws)[i] + ws[i] := by
  simp [block]

/-- One step of the quarter-round, word by word. -/
theorem qrStep_getElem (p q r : Fin 16) (n : Nat) (x : Scratch) (hpr : p ≠ r) (i : Fin 16) :
    (qrStep p q r n x)[i] =
      if i = r then rotl32 (x[r] ^^^ (x[p] + x[q])) n else if i = p then x[p] + x[q] else x[i] := by
  have hv : p.val ≠ r.val := fun h => hpr (Fin.ext h)
  simp only [qrStep, Fin.getElem_fin, Vector.getElem_set, Fin.ext_iff, eq_comm (a := i.val)]
  by_cases h1 : r.val = i.val
  · have h2 : p.val ≠ i.val := h1 ▸ hv
    simp [h1, h2]
  · simp [h1]

end Sys2Proof.Machine
end

