-- ==== Sys2Proof/Laws/Bus.lean ====
section
/-! SUPPORT. Everything a bus access and a step can do, said once. `AccessEffect a s t` lists the ways one access can
take `s` to `t`; `access_effect` and `step_cases` are what later proofs cite. -/

namespace Sys2Proof.Machine

/-- A register's offset names that register in the map (20_memory.md R39). -/
@[simp] theorem regAt_offset (r : Reg) : regAt r.offset = some r := by
  cases r with
  | keyw i => revert i; decide
  | noncew j => revert j; decide
  | ks k => revert k; decide
  | _ => rfl

theorem Reg.offset_legal (r : Reg) : r.offset < 256 ∧ r.offset % 4 = 0 := by
  cases r with
  | keyw i => revert i; decide
  | noncew j => revert j; decide
  | ks k => revert k; decide
  | _ => decide

theorem base_mod_four (s : State) : s.base % 4 = 0 := by
  simp only [State.base, Config.windowBytes]
  omega

/-- The aligned addresses of the window are the legal ones (20_memory.md R45). -/
theorem offsetOf_eq_some_iff {s : State} {addr off : Nat} :
    offsetOf s addr = some off ↔ addr = s.base + off ∧ off < 256 ∧ off % 4 = 0 := by
  have hb := base_mod_four s
  have hw : Config.windowBytes = 256 := rfl
  by_cases h : s.base ≤ addr ∧ addr < s.base + Config.windowBytes ∧ addr % 4 = 0
  · rw [offsetOf, if_pos h, Option.some.injEq]
    omega
  · rw [offsetOf, if_neg h]
    simp only [reduceCtorEq, false_iff]
    omega

theorem offsetOf_base_add (s : State) {off : Nat} (h : off < 256) (h4 : off % 4 = 0) :
    offsetOf s (s.base + off) = some off :=
  offsetOf_eq_some_iff.2 ⟨rfl, h, h4⟩

@[simp] theorem offsetOf_reg (s : State) (r : Reg) : offsetOf s (s.base + r.offset) = some r.offset :=
  offsetOf_base_add s r.offset_legal.1 r.offset_legal.2

theorem offsetOf_eq_none_iff {s : State} {addr : Nat} :
    offsetOf s addr = none ↔ ¬ (s.base ≤ addr ∧ addr < s.base + 256 ∧ addr % 4 = 0) := by
  have hw : Config.windowBytes = 256 := rfl
  by_cases h : s.base ≤ addr ∧ addr < s.base + Config.windowBytes ∧ addr % 4 = 0
  · rw [offsetOf, if_pos h]
    simp only [reduceCtorEq, false_iff]
    omega
  · rw [offsetOf, if_neg h]
    simp only [true_iff]
    omega

/-- The map of 20_memory.md R39, offset by offset: a register stands at its own offset, and the offsets with none are
the reserved ones. -/
theorem regAt_map : ∀ off : Fin 256, off.val % 4 = 0 →
    (regAt off.val).all (fun r => r.offset == off.val) = true ∧
      (regAt off.val = none ↔ (0x05C ≤ off.val ∧ off.val < 0x080) ∨ 0x0C0 ≤ off.val) := by
  decide +kernel

/-- A register at an offset stands at its own offset (20_memory.md R39). -/
theorem offset_of_regAt {off : Nat} {r : Reg} (hlt : off < 256) (h4 : off % 4 = 0) (h : regAt off = some r) :
    r.offset = off := by
  have := (regAt_map ⟨off, hlt⟩ h4).1
  simpa [h] using this

/-- The reserved offsets are those of 20_memory.md R39. -/
theorem regAt_eq_none_iff {off : Nat} (hlt : off < 256) (h4 : off % 4 = 0) :
    regAt off = none ↔ (0x05C ≤ off ∧ off < 0x080) ∨ 0x0C0 ≤ off :=
  (regAt_map ⟨off, hlt⟩ h4).2

/-- What one access can do (20_memory.md R43 to R45, 30_encoding.md R62, 70_reset_and_hazards.md R133). -/
inductive AccessEffect (a : BusAccess) (s : State) : State → Prop where
  /-- A read, an ignored write or a bus error: only the answer. -/
  | answered (r : BusResponse) : AccessEffect a s (s.respond r)
  | stageKey (i : Fin 8) (v : Word) (hz : s.inReset = false)
      (ha : a = .write (s.base + (Reg.keyw i).offset) (.b32 v)) :
      AccessEffect a s ((s.respond .writeDone).stageKey i v)
  | stageNonce (j : Fin 3) (v : Word) (hz : s.inReset = false)
      (ha : a = .write (s.base + (Reg.noncew j).offset) (.b32 v)) :
      AccessEffect a s ((s.respond .writeDone).stageNonce j v)
  | stageCtrLo (v : Word) (hz : s.inReset = false) (ha : a = .write (s.base + Reg.ctrwLo.offset) (.b32 v)) :
      AccessEffect a s ((s.respond .writeDone).stageCtrLo v)
  | stageCtrHi (v : Word) (hz : s.inReset = false) (ha : a = .write (s.base + Reg.ctrwHi.offset) (.b32 v)) :
      AccessEffect a s ((s.respond .writeDone).stageCtrHi v)
  | command (w : Word) (i : Instr) {t : State} (hz : s.inReset = false)
      (ha : a = .write (s.base + Reg.cmd.offset) (.b32 w)) (hd : decode w = .ok i)
      (he : exec i (s.respond .writeDone) = .next t) : AccessEffect a s t
  | illegal (w : Word) (e : DecodeError) (hz : s.inReset = false)
      (ha : a = .write (s.base + Reg.cmd.offset) (.b32 w)) (hd : decode w = .error e) :
      AccessEffect a s ((s.respond .writeDone).setErr .illegalCommand)

/-- Writing a command word always answers a next state. -/
theorem writeCmd_next (w : Word) (s : State) : ∃ t, writeCmd w s = .next t := by
  unfold writeCmd
  cases hd : decode w with
  | ok i => exact exec_next i s
  | error e => exact ⟨_, rfl⟩

/-- Every access is answered, in one of the ways `AccessEffect` lists. -/
theorem access_next_effect (a : BusAccess) (s : State) : ∃ t, access a s = .next t ∧ AccessEffect a s t := by
  have err : ∃ t, busError s = .next t ∧ AccessEffect a s t := ⟨_, rfl, .answered _⟩
  cases a with
  | read addr w =>
    cases w with
    | w32 =>
      simp only [access]
      cases offsetOf s addr with
      | none => exact err
      | some off => exact ⟨_, rfl, .answered _⟩
    | _ => exact err
  | write addr d =>
    cases d with
    | b32 v =>
      simp only [access]
      cases ho : offsetOf s addr with
      | none => exact err
      | some off =>
        obtain ⟨rfl, hlt, h4⟩ := offsetOf_eq_some_iff.1 ho
        simp only [write32]
        cases hz : s.inReset with
        | true => exact ⟨_, rfl, .answered _⟩
        | false =>
          simp only [writeOffset, Bool.false_eq_true, if_false]
          cases hr : regAt off with
          | none => exact ⟨_, rfl, .answered _⟩
          | some r =>
            obtain rfl := offset_of_regAt hlt h4 hr
            cases r with
            | keyw i => exact ⟨_, rfl, .stageKey i v hz rfl⟩
            | noncew j => exact ⟨_, rfl, .stageNonce j v hz rfl⟩
            | ctrwLo => exact ⟨_, rfl, .stageCtrLo v hz rfl⟩
            | ctrwHi => exact ⟨_, rfl, .stageCtrHi v hz rfl⟩
            | cmd =>
              simp only [writeReg, writeCmd]
              cases hd : decode v with
              | ok i =>
                obtain ⟨t, ht⟩ := exec_next i (s.respond .writeDone)
                exact ⟨t, ht, .command v i hz rfl hd ht⟩
              | error e => exact ⟨_, rfl, .illegal v e hz rfl hd⟩
            | _ => exact ⟨_, rfl, .answered _⟩
    | _ => exact err

theorem access_next (a : BusAccess) (s : State) : ∃ t, access a s = .next t :=
  (access_next_effect a s).imp fun _ h => h.1

theorem access_effect {a : BusAccess} {s t : State} (h : access a s = .next t) : AccessEffect a s t := by
  obtain ⟨u, hu, he⟩ := access_next_effect a s
  rw [hu] at h
  cases h
  exact he

/-- A step with no input changes nothing; otherwise it takes the first input (10_state.md R15, 20_memory.md R50). -/
theorem step_cases {s t : State} (h : step s = .next t) :
    (s.pending = [] ∧ t = s) ∨
    (∃ a rest, s.pending = .access a :: rest ∧ AccessEffect a (s.withPending rest) t) ∨
    (∃ rest, s.pending = .resetAssert :: rest ∧ t = (s.withPending rest).assertReset) ∨
    (∃ rest, s.pending = .resetRelease :: rest ∧ t = (s.withPending rest).releaseReset) := by
  unfold step serveNext at h
  cases hp : s.pending with
  | nil =>
    rw [hp] at h
    cases h
    exact .inl ⟨rfl, rfl⟩
  | cons e rest =>
    rw [hp] at h
    cases e with
    | access a => exact .inr (.inl ⟨a, rest, rfl, access_effect h⟩)
    | resetAssert =>
      cases h
      exact .inr (.inr (.inl ⟨rest, rfl, rfl⟩))
    | resetRelease =>
      cases h
      exact .inr (.inr (.inr ⟨rest, rfl, rfl⟩))

/-- What an access leaves alone outside the architecture: the parameter, the reset input and the inputs to come. -/
theorem access_keeps {a : BusAccess} {s t : State} (h : access a s = .next t) :
    t.window = s.window ∧ t.inReset = s.inReset ∧ t.pending = s.pending := by
  cases access_effect h with
  | command w i hz ha hd he =>
    have := exec_sameOutside he
    exact ⟨this.window, this.inReset, this.pending⟩
  | _ => exact ⟨rfl, rfl, rfl⟩

theorem access_base {a : BusAccess} {s t : State} (h : access a s = .next t) : t.base = s.base := by
  simp only [State.base, (access_keeps h).1]

/-- A read of a register while the reset input is released (20_memory.md R43). -/
theorem access_read_reg (s : State) (r : Reg) (hz : s.inReset = false) :
    access (.read (s.base + r.offset) .w32) s = .next (s.respond (.readData (readReg r s))) := by
  simp [access, read32, hz, readOffset]

/-- A write of a register while the reset input is released (20_memory.md R44). -/
theorem access_write_reg (s : State) (r : Reg) (v : Word) (hz : s.inReset = false) :
    access (.write (s.base + r.offset) (.b32 v)) s = writeReg r v (s.respond .writeDone) := by
  simp [access, write32, hz, writeOffset]

end Sys2Proof.Machine
end

