-- ==== Sys2Proof/Laws/PerInstr.lean ====
section
/-! SUPPORT. Facts about each command as syntax, one lemma per constructor of `Instr`. -/

namespace Sys2Proof.Laws

/-- The command's fields are well formed, its word holds exactly those fields, and that word lies in the command's own
row of the opcode map and in no other (30_encoding.md R59, R61). -/
def EncodesInItsRow.Statement (i : Instr) : Prop :=
  i.wf = true ∧ encode i = wordOf i.fields ∧ fieldsOf (encode i) = i.fields ∧
    opcodeTable.filter (·.accepts (encode i)) = [rowOf i]

theorem EncodesInItsRow.init : EncodesInItsRow.Statement .init := by
  unfold EncodesInItsRow.Statement
  decide

theorem EncodesInItsRow.nextblk : EncodesInItsRow.Statement .nextblk := by
  unfold EncodesInItsRow.Statement
  decide

theorem EncodesInItsRow.xor (din : Byte) : EncodesInItsRow.Statement (.xor din) := by
  unfold EncodesInItsRow.Statement
  revert din
  decide +kernel

end Sys2Proof.Laws
end

