-- ==== Sys2Proof/Laws/Program.lean ====
section
/-! SUPPORT. Lemmas on sequences of commands and accesses and on the host's loop. -/

namespace Sys2Proof.Machine

@[simp] theorem andThen_next {α β : Type} (s : α) (f : α → Host.Outcome β Fault Refusal) :
    andThen (.next s) f = f s := rfl

theorem andThen_eq_next {α β : Type} {o : Host.Outcome α Fault Refusal} {f : α → Host.Outcome β Fault Refusal}
    {t : β} (h : andThen o f = .next t) : ∃ s, o = .next s ∧ f s = .next t := by
  cases o with
  | next s => exact ⟨s, rfl, h⟩
  | fault r => cases h
  | refused r => cases h

theorem andThen_assoc {α β γ : Type} (o : Host.Outcome α Fault Refusal) (f : α → Host.Outcome β Fault Refusal)
    (g : β → Host.Outcome γ Fault Refusal) :
    andThen (andThen o f) g = andThen o fun s => andThen (f s) g := by
  cases o <;> rfl

@[simp] theorem commands_nil (s : State) : commands [] s = .next s := rfl

theorem commands_cons (i : Instr) (is : List Instr) (s : State) :
    commands (i :: is) s = andThen (exec i s) (commands is) := rfl

theorem commands_cons_of_exec {i : Instr} {s t : State} (h : exec i s = .next t) (is : List Instr) :
    commands (i :: is) s = commands is t := by
  rw [commands_cons, h, andThen_next]

theorem commands_append (is js : List Instr) (s : State) :
    commands (is ++ js) s = andThen (commands is s) (commands js) := by
  induction is generalizing s with
  | nil => rfl
  | cons i is ih =>
    obtain ⟨t, ht⟩ := exec_next i s
    rw [List.cons_append, commands_cons_of_exec ht, commands_cons_of_exec ht, ih]

theorem commands_next (is : List Instr) (s : State) : ∃ t, commands is s = .next t := by
  induction is generalizing s with
  | nil => exact ⟨s, rfl⟩
  | cons i is ih =>
    obtain ⟨t, ht⟩ := exec_next i s
    rw [commands_cons_of_exec ht]
    exact ih t

@[simp] theorem accesses_nil (s : State) : accesses [] s = .next s := rfl

theorem accesses_cons_of_access {a : BusAccess} {s t : State} (h : access a s = .next t) (as : List BusAccess) :
    accesses (a :: as) s = accesses as t := by
  rw [accesses, h, andThen_next]

theorem accesses_append (as bs : List BusAccess) (s : State) :
    accesses (as ++ bs) s = andThen (accesses as s) (accesses bs) := by
  induction as generalizing s with
  | nil => rfl
  | cons a as ih =>
    obtain ⟨t, ht⟩ := access_next a s
    rw [List.cons_append, accesses_cons_of_access ht, accesses_cons_of_access ht, ih]

theorem accesses_next (as : List BusAccess) (s : State) : ∃ t, accesses as s = .next t := by
  induction as generalizing s with
  | nil => exact ⟨s, rfl⟩
  | cons a as ih =>
    obtain ⟨t, ht⟩ := access_next a s
    rw [accesses_cons_of_access ht]
    exact ih t

/-- The inputs a run takes: one step takes the first input and leaves the rest. -/
theorem step_of_pending {s : State} {e : Input} {rest : List Input} (h : s.pending = e :: rest) :
    step s = takeInput e (s.withPending rest) := by
  simp [step, serveNext, h]

/-- An XOR that is not refused leaves `ERR` = 0, one that is refused does not (60_exceptions.md R117). -/
theorem exec_xor_err {d : Byte} {s t : State} (h : exec (.xor d) s = .next t) :
    t.err = .ok ∨ (t = s.setErr t.err ∧ t.err ≠ .ok) := by
  rw [exec_iff] at h
  cases h with
  | xorInvalid d hv => exact .inr ⟨rfl, by simp⟩
  | xorExhausted d hv hc he => exact .inr ⟨rfl, by simp⟩
  | _ => exact .inl rfl

end Sys2Proof.Machine
end

