-- ==== Sys2Proof/Tests/Slice0.lean ====
section
/-! SUPPORT. Tests of the model on values that 95_test_vectors.md and the encoding tables give, and for every statement
that has hypotheses a witness: a concrete state and operands that meet all of them together, clause by clause. -/

namespace Sys2Proof.Tests

open Sys2Proof.Machine Sys2Proof.Safety

/-! ### Well-formedness: one ill-formed term for each check (30_encoding.md R59, R63) -/

theorem test_wf_refuses_opcode_zero : (CommandFields.mk 0x00#8 0x00#8 0#16).wf = false := by decide

theorem test_wf_refuses_opcode_four : (CommandFields.mk 0x04#8 0x00#8 0#16).wf = false := by decide

theorem test_wf_refuses_reserved_bit : (CommandFields.mk 0x03#8 0x4C#8 0x8000#16).wf = false := by decide

theorem test_wf_refuses_data_byte_of_init : (CommandFields.mk 0x01#8 0x01#8 0#16).wf = false := by decide

theorem test_wf_refuses_data_byte_of_nextblk : (CommandFields.mk 0x02#8 0x80#8 0#16).wf = false := by decide

theorem test_wf_accepts_data_byte_of_xor : (CommandFields.mk 0x03#8 0xFF#8 0#16).wf = true := by decide

/-! ### Decoding: the words of the "Encoding" lines of R72, R95, R102 and of R67, V-ERR-7, written out bit by bit -/

theorem test_decode_init : decode 0b00000000000000000000000000000001#32 = .ok .init := by decide

theorem test_decode_nextblk : decode 0b00000000000000000000000000000010#32 = .ok .nextblk := by decide

/-- R67: `XOR 0x4C` is 0x00004C03. -/
theorem test_decode_xor : decode 0b00000000000000000100110000000011#32 = .ok (.xor 0x4C#8) := by decide

/-- The words of R67 and V-ERR-7, each refused for its reason. -/
theorem test_decode_illegal :
    [0x00000000#32, 0x00000004#32, 0x000000FF#32, 0x00000101#32, 0x00000102#32, 0x00010003#32, 0x80000001#32].map decode
      = [.error .unknownOpcode, .error .unknownOpcode, .error .unknownOpcode, .error .dataByteNotZero,
        .error .dataByteNotZero, .error .reservedNotZero, .error .reservedNotZero] := by
  decide

theorem test_decodeTableWord : decodeTableWord 32 0x00004C03 = some (.xor 0x4C#8) := by decide

/-- No two rows of the opcode map overlap (30_encoding.md R62): every word lies in at most one. -/
theorem test_rows_disjoint :
    opcodeTable.Pairwise fun r q => (r.value &&& q.mask) ≠ q.value ∧ (q.value &&& r.mask) ≠ r.value := by
  decide

/-! ### Primitives: V-PRIM-1 to V-PRIM-7 -/

theorem test_rotl32 :
    rotl32 0x80000001#32 7 = 0x000000C0#32 ∧ rotl32 0x12345678#32 16 = 0x56781234#32 ∧
      rotl32 0x01020304#32 8 = 0x02030401#32 ∧ rotl32 0x00000001#32 12 = 0x00001000#32 := by
  decide

theorem test_le32 : le32 0x65#8 0x78#8 0x70#8 0x61#8 = 0x61707865#32 := by decide

/-! ### The block transform -/

/-- V-QR-9 (RFC 7539 section 2.2.1): the pattern (2, 7, 8, 13) on a full state. -/
theorem test_quarterRound :
    quarterRound #v[0x879531E0#32, 0xC5ECF37D#32, 0x516461B1#32, 0xC9A62F8A#32,
      0x44C20EF3#32, 0x3390AF7F#32, 0xD9FC690B#32, 0x2A5F714C#32,
      0x53372767#32, 0xB00A5631#32, 0x974C541A#32, 0x359E9963#32,
      0x5C971061#32, 0x3D631689#32, 0x2098D9D6#32, 0x91DBD320#32] ⟨2, 7, 8, 13⟩ =
    #v[0x879531E0#32, 0xC5ECF37D#32, 0xBDB886DC#32, 0xC9A62F8A#32,
      0x44C20EF3#32, 0x3390AF7F#32, 0xD9FC690B#32, 0xCFACAFD2#32,
      0xE46BEA80#32, 0xB00A5631#32, 0x974C541A#32, 0x359E9963#32,
      0x5C971061#32, 0xCCC07C79#32, 0x2098D9D6#32, 0x91DBD320#32] := by
  decide +kernel

/-- The key of V-INIT-2: bytes 00 01 ... 1F. -/
def countingKey : Vector Word 8 :=
  #v[0x03020100#32, 0x07060504#32, 0x0B0A0908#32, 0x0F0E0D0C#32, 0x13121110#32, 0x17161514#32, 0x1B1A1918#32, 0x1F1E1D1C#32]

/-- The key of zeros. -/
def zeroKey : Vector Word 8 := Vector.replicate 8 0#32

/-- The nonce of V-INIT-2. -/
def rfcNonce : Vector Word 3 := #v[0x09000000#32, 0x4A000000#32, 0x00000000#32]

/-- The nonce of zeros. -/
def zeroNonce : Vector Word 3 := Vector.replicate 3 0#32

/-- V-RND-2: the working state of V-INIT-2 after the first double-round. -/
theorem test_doubleRound :
    doubleRound (workingState countingKey rfcNonce 1#64) =
    #v[0xCD52E917#32, 0x85AB03B4#32, 0xB3457395#32, 0xF96DE7DD#32,
      0xC4B7CD22#32, 0x5C2E187A#32, 0xC95EB461#32, 0x316C801A#32,
      0x7BF7D740#32, 0x7EDDD644#32, 0xF1A1BDF5#32, 0x761246CA#32,
      0x6B0D58A3#32, 0x6798471A#32, 0xD737F167#32, 0xF173888D#32] := by
  decide +kernel

/-! ### The commands -/

/-- The core with a key, a nonce and a counter staged, before any command. -/
def staged (k : Vector Word 8) (n : Vector Word 3) (c : Word64) : State :=
  { State.reset with pkey := k, keymask := 0xFF#8, pnonce := n, noncemask := 0x7#3, pctr := c }

/-- The core after INIT has built the cipher state of a key, a nonce and a counter. -/
def keyed (k : Vector Word 8) (n : Vector Word 3) (c : Word64) : State :=
  (staged k n c).buildCipher.setErr .ok

/-- V-INIT-3: the working state at start counter 0x0000000500000007, and CURSOR, BLKCNT, SCTR, STATUS. -/
theorem test_init_counter_high_half :
    (nextOf (exec .init (staged countingKey rfcNonce 0x0000000500000007#64))).map
        (fun t => (t.ws, t.cursor, t.blkcnt, t.sctr, t.statusWord)) =
      some (#v[0x61707865#32, 0x3320646E#32, 0x79622D32#32, 0x6B206574#32,
        0x03020100#32, 0x07060504#32, 0x0B0A0908#32, 0x0F0E0D0C#32,
        0x13121110#32, 0x17161514#32, 0x1B1A1918#32, 0x1F1E1D1C#32,
        0x00000007#32, 0x09000005#32, 0x4A000000#32, 0x00000000#32],
        64, 0x0000000500000007#64, 0x0000000500000007#64, 0x0007FF01#32) := by
  decide +kernel

/-- V-ERR-3 and V-ERR-5: the status after INIT with seven key words, and after INIT with the nonce words 0 and 2 only. -/
theorem test_init_refused :
    (nextOf (exec .init { State.reset with keymask := 0x7F#8 })).map State.statusWord = some 0x00007F10#32 ∧
      (nextOf (exec .init { State.reset with keymask := 0xFF#8, noncemask := 0b101#3 })).map State.statusWord =
        some 0x0005FF20#32 := by
  decide +kernel

/-- V-CTR-2: the carry into word 13 at the end of the low half. -/
theorem test_nextblk_carries :
    (nextOf (exec .nextblk (keyed zeroKey #v[0x00000009#32, 0x4A000000#32, 0#32] 0x00000000FFFFFFFF#64))).map
        (fun t => (t.ks[0], t.ks[1], t.ws[12], t.ws[13], t.blkcnt, t.statusWord)) =
      some (0xF364FFA8#32, 0xD99700D0#32, 0x00000000#32, 0x0000000A#32, 0x0000000100000000#64, 0x0007FF01#32) := by
  decide +kernel

/-- V-EXH-1: the block at counter 2^64 - 1 is produced, nothing advances, EXH is set. -/
theorem test_nextblk_exhausts :
    (nextOf (exec .nextblk (keyed zeroKey zeroNonce 0xFFFFFFFFFFFFFFFF#64))).map
        (fun t => (t.ks[0], t.ks[15], t.ws[12], t.ws[13], t.blkcnt, t.statusWord)) =
      some (0xD88C91D7#32, 0x8976B107#32, 0xFFFFFFFF#32, 0xFFFFFFFF#32, 0xFFFFFFFFFFFFFFFF#64, 0x0007FF03#32) := by
  decide +kernel

/-- P5, line 15: the first byte of the RFC 7539 section 2.4.2 encryption, 4C to 6E, generates the block at counter 1. -/
theorem test_xor_generates :
    (nextOf (exec (.xor 0x4C#8) (keyed countingKey #v[0#32, 0x4A000000#32, 0#32] 1#64))).map
        (fun t => (t.dout, t.cursor, t.blkcnt, t.statusWord)) =
      some (0x6E#8, 1, 2#64, 0x0007FF01#32) := by
  decide +kernel

/-- V-XOR-2 and V-XOR-7: the 64th byte of the block is the top byte of KS15 = 8665EEB2, and CURSOR becomes 64. -/
theorem test_xor_last_byte :
    (nextOf (exec (.xor 0x00#8) { keyed zeroKey zeroNonce 1#64 with
        cursor := 63, ks := (Vector.replicate 16 0#32).set 15 0x8665EEB2#32 })).map
        (fun t => (t.dout, t.cursor, t.blkcnt)) =
      some (0x86#8, 64, 1#64) := by
  decide +kernel

/-! ### The step and the fetch word -/

/-- V-ERR-8: from reset the word 0x00000101 gives STATUS = 0x00000050. -/
theorem test_step_illegal :
    (nextOf (step (State.reset.withFetchWord 32 0x00000101))).map State.statusWord = some 0x00000050#32 := by
  decide +kernel

/-- V-ERR-1: from reset `XOR 0x12` gives STATUS = 0x00000040. -/
theorem test_step_not_initialized :
    (nextOf (step (State.reset.withFetchWord 32 0x00001203))).map State.statusWord = some 0x00000040#32 := by
  decide +kernel

/-- P4, lines 34 and 36: KEYW0 reads 0 when a key is staged, and a write of STATUS changes only what is answered. -/
theorem test_access_masks_key :
    (nextOf (access (.read 0x000 .w32) (staged countingKey rfcNonce 1#64))).map (·.response) =
        some (some (.readData 0#32)) ∧
      nextOf (access (.write 0x038 (.b32 0xFFFFFFFF#32)) (staged countingKey rfcNonce 1#64)) =
        some { staged countingKey rfcNonce 1#64 with response := some .writeDone } := by
  decide +kernel

/-- R65: `XOR 0x4C` is the write of 0x00004C03 to CMD, `RD KS1` the read at 0x084, `WR KEYW7, 5` the write at 0x01C. -/
theorem test_line_access :
    [Line.cmd (.xor 0x4C#8), .rd (.ks 1), .wr (.keyw 7) 5#32].map (Line.access 0x100) =
      [.write 0x134 (.b32 0x00004C03#32), .read 0x184 .w32, .write 0x11C (.b32 5#32)] := by
  decide

/-! ### Witnesses: what meets the hypotheses of each statement -/

/-- The core with its window at bus address 0x100. -/
def placed : State := { State.reset with window := 1 }

/-- The core with the reset input asserted. -/
def held : State := { State.reset with window := 1, inReset := true }

/-- The core once its counter space is used up, with the cursor at the end of the block. -/
def exhausted : State :=
  { keyed zeroKey zeroNonce 0xFFFFFFFFFFFFFFFF#64 with
    exh := true, ks := block (workingState zeroKey zeroNonce 0xFFFFFFFFFFFFFFFF#64) }

/-- The core with a key and a nonce staged and the word of INIT as the next access. -/
def aboutToInit : State :=
  { staged countingKey rfcNonce 1#64 with pending := [.access (.write 0x034 (.b32 0x00000001#32))] }

theorem staged_ready (k : Vector Word 8) (n : Vector Word 3) (c : Word64) : readyForInit (staged k n c) := ⟨rfl, rfl⟩

theorem exec_init_staged (k : Vector Word 8) (n : Vector Word 3) (c : Word64) :
    exec .init (staged k n c) = .next (keyed k n c) := exec_of_effect (.initDone rfl rfl)

theorem witness_DecodeEncodeAgree :
    (Instr.xor 0xFF#8).wf = true ∧ Instr.init.wf = true ∧ Instr.nextblk.wf = true ∧
      decode 0x0000FF03#32 = .ok (.xor 0xFF#8) := by
  decide

theorem witness_IllegalWordsRefused :
    State.reset.inReset = false ∧
      ∀ w ∈ [0x00000000#32, 0x00000004#32, 0x000000FF#32, 0x00000101#32, 0x00010001#32, 0x00000102#32, 0x80000002#32,
        0x00010003#32], ∃ e, decode w = .error e := by
  refine ⟨rfl, ?_⟩
  simp only [List.forall_mem_cons, List.not_mem_nil, false_imp_iff, implies_true, and_true]
  exact ⟨⟨.unknownOpcode, by decide⟩, ⟨.unknownOpcode, by decide⟩, ⟨.unknownOpcode, by decide⟩,
    ⟨.dataByteNotZero, by decide⟩, ⟨.reservedNotZero, by decide⟩, ⟨.dataByteNotZero, by decide⟩,
    ⟨.reservedNotZero, by decide⟩, ⟨.reservedNotZero, by decide⟩⟩

theorem witness_StepRunsDecodedCommand :
    aboutToInit.inReset = false ∧
      aboutToInit.pending = .access (.write (aboutToInit.base + 0x034) (.b32 0x00000001#32)) :: [] ∧
      decode 0x00000001#32 = .ok .init := by
  decide

theorem witness_CmdWriteDecodesOnce : placed.inReset = false ∧ placed.base = 0x100 := by decide

theorem witness_IdleStepHoldsState : placed.pending = [] := rfl

theorem witness_AccessesTakeEffectInIssueOrder :
    ({ State.reset with pending := [.access (.write 0x034 (.b32 0x00000002#32)), .access (.read 0x038 .w32),
        .resetAssert] } : State).pending =
      [BusAccess.write 0x034 (.b32 0x00000002#32), .read 0x038 .w32].map .access ++ [.resetAssert] := rfl

/-- The first clause is met by each other width; the addresses just below and above the window, and misaligned ones,
are no legal addresses; the first and the last offset are legal. -/
theorem witness_BusErrorChangesNothing :
    placed.inReset = false ∧ (∀ w ∈ [Width.w8, .w16, .w64], w ≠ .w32) ∧
      (∀ addr ∈ [0x0FC, 0x0FF, 0x101, 0x102, 0x1FD, 0x1FF, 0x200],
        ¬ ∃ off, off ≤ 0x0FC ∧ off % 4 = 0 ∧ addr = placed.base + off) ∧
      (∀ off ∈ [0x000, 0x0FC], off ≤ 0x0FC ∧ off % 4 = 0) := by
  have hb : placed.base = 0x100 := by decide
  refine ⟨rfl, by decide, ?_, by decide⟩
  rw [hb]
  intro addr ha
  simp only [List.mem_cons, List.not_mem_nil, or_false] at ha
  omega

theorem witness_BusErrorWhileResetAsserted :
    held.inReset = true ∧
      ∀ a ∈ [BusAccess.read 0x100 .w8, .write 0x100 (.b64 0), .read 0x101 .w32, .write 0x200 (.b32 0)],
        (∀ addr v, a ≠ .write addr (.b32 v) ∨ ∀ off, off ≤ 0x0FC → off % 4 = 0 → addr ≠ held.base + off) ∧
        (∀ addr, a ≠ .read addr .w32 ∨ ∀ off, off ≤ 0x0FC → off % 4 = 0 → addr ≠ held.base + off) := by
  have hb : held.base = 0x100 := by decide
  refine ⟨rfl, ?_⟩
  rw [hb]
  simp only [List.forall_mem_cons, List.not_mem_nil, false_imp_iff, implies_true, and_true]
  refine ⟨⟨?_, ?_⟩, ⟨?_, ?_⟩, ⟨?_, ?_⟩, ⟨?_, ?_⟩⟩
  · intro addr v
    exact .inl (by simp)
  · intro addr
    exact .inl (by simp)
  · intro addr v
    exact .inl (by simp)
  · intro addr
    exact .inl (by simp)
  · intro addr v
    exact .inl (by simp)
  · intro addr
    by_cases h : addr = 0x101
    · exact .inr (by omega)
    · exact .inl (by simpa using fun e => h e.symm)
  · intro addr v
    by_cases h : addr = 0x200
    · exact .inr (by omega)
    · exact .inl (by simpa using fun e => absurd e.symm h)
  · intro addr
    exact .inl (by simp)

theorem witness_ReadReturnsRegisterMap :
    (staged countingKey rfcNonce 1#64).inReset = false ∧
      ∀ off ∈ [0x05C, 0x07C, 0x0C0, 0x0FC], off % 4 = 0 ∧ ((0x05C ≤ off ∧ off ≤ 0x07C) ∨ (0x0C0 ≤ off ∧ off ≤ 0x0FC)) := by
  decide

theorem witness_WritesFollowRegisterMap :
    placed.inReset = false ∧ ∀ off ∈ [0x038, 0x0FC], 0x038 ≤ off ∧ off ≤ 0x0FC ∧ off % 4 = 0 := by
  decide

theorem witness_ReservedOffsetsReadZero :
    ∀ off ∈ [0x05C, 0x07C, 0x0C0, 0x0FC], off % 4 = 0 ∧ ((0x05C ≤ off ∧ off ≤ 0x07C) ∨ (0x0C0 ≤ off ∧ off ≤ 0x0FC)) := by
  decide

theorem witness_KeyMaterialCannotBeReadBack :
    ∃ w : Vector Word 16, w ≠ State.reset.ws ∧ w[12] = State.reset.ws[12] ∧ w[13] = State.reset.ws[13] :=
  ⟨(Vector.replicate 16 0#32).set 4 1#32, by decide, by decide, by decide⟩

/-- Writes of the counter staging are among the accesses, and none is a write of CMD. -/
theorem witness_CounterHalvesReadConsistently :
    (keyed zeroKey zeroNonce 0x0000000100000002#64).inReset = false ∧
      ∀ v, .write ((keyed zeroKey zeroNonce 0x0000000100000002#64).base + 0x034) (.b32 v) ∉
        [BusAccess.write 0x02C (.b32 5), .read 0x044 .w32] := by
  have hb : (keyed zeroKey zeroNonce 0x0000000100000002#64).base = 0 := by rfl
  refine ⟨rfl, fun v => ?_⟩
  rw [hb]
  simp

theorem witness_AccessesWhileResetAsserted :
    held.inReset = true ∧ ∀ off ∈ [0x000, 0x034, 0x0FC], off ≤ 0x0FC ∧ off % 4 = 0 := by
  decide

theorem witness_StatusFieldsReadState : placed.inReset = false := rfl

theorem witness_InitBuildsCipherState : readyForInit (staged countingKey rfcNonce 0x0000000500000007#64) :=
  staged_ready ..

theorem witness_RefusedInitChangesOnlyErr :
    ({ State.reset with keymask := 0x7F#8 } : State).keymask ≠ 0xFF#8 ∧
      ({ State.reset with keymask := 0xFF#8, noncemask := 0b101#3 } : State).keymask = 0xFF#8 ∧
      ({ State.reset with keymask := 0xFF#8, noncemask := 0b101#3 } : State).noncemask ≠ 0x7#3 := by
  decide

theorem witness_ReInitRebuildsSameState : readyForInit (staged countingKey rfcNonce 1#64) := staged_ready ..

theorem witness_ConstantWordsAreAscii : readyForInit (staged countingKey rfcNonce 1#64) := staged_ready ..

/-- The example of 40_init.md R80: nonce word 0 = 0xFFFFFFFF at counter 2^32, and 0 at counter 0. -/
theorem witness_AliasedCountersGiveEqualBlocks :
    ∃ s s' : State, readyForInit s ∧ readyForInit s' ∧ s.pnonce[0] ≠ s'.pnonce[0] ∧ s.pkey = s'.pkey ∧
      s.pctr.extractLsb' 0 32 = s'.pctr.extractLsb' 0 32 ∧
      s.pnonce[0] + s.pctr.extractLsb' 32 32 = s'.pnonce[0] + s'.pctr.extractLsb' 32 32 ∧
      s.pnonce[1] = s'.pnonce[1] ∧ s.pnonce[2] = s'.pnonce[2] :=
  ⟨staged zeroKey #v[0xFFFFFFFF#32, 0#32, 0#32] 0x0000000100000000#64, staged zeroKey zeroNonce 0#64,
    staged_ready .., staged_ready .., by decide, by decide, by decide, by decide, by decide, by decide⟩

theorem witness_SetupRealizesInitialize : placed.inReset = false := rfl

/-- V-QR-1, step by step. -/
theorem witness_QuarterRoundSteps :
    [(0 : Fin 16), 1, 2, 3].Nodup ∧
      ∀ x : Scratch, x = #v[0x11111111#32, 0x01020304#32, 0x9B8D6F43#32, 0x01234567#32] ++ Vector.replicate 12 0#32 →
        0x12131415#32 = x[(0 : Fin 16)] + x[(1 : Fin 16)] ∧
        0x51721330#32 = (x[(3 : Fin 16)] ^^^ 0x12131415#32).rotateLeft 16 ∧
        0xECFF8273#32 = x[(2 : Fin 16)] + 0x51721330#32 ∧
        0xD8177EDF#32 = (x[(1 : Fin 16)] ^^^ 0xECFF8273#32).rotateLeft 12 ∧
        0xEA2A92F4#32 = 0x12131415#32 + 0xD8177EDF#32 ∧
        0x5881C4BB#32 = (0x51721330#32 ^^^ 0xEA2A92F4#32).rotateLeft 8 ∧
        0x4581472E#32 = 0xECFF8273#32 + 0x5881C4BB#32 ∧
        0xCB1CF8CE#32 = (0xD8177EDF#32 ^^^ 0x4581472E#32).rotateLeft 7 := by
  refine ⟨by decide, ?_⟩
  rintro x rfl
  decide

theorem witness_QuarterRoundsOfARoundCommute :
    columnPatterns.reverse.Perm columnPatterns ∧ diagonalPatterns.reverse.Perm diagonalPatterns :=
  ⟨List.reverse_perm _, List.reverse_perm _⟩

/-- At the end of the low half of the counter, where the carry goes into word 13. -/
theorem witness_NextblkAdvancesCounter :
    ∃ s : State, readyForBlock s ∧ s.blkcnt ≠ 0xFFFFFFFFFFFFFFFF#64 ∧ s.ws[12] + 1#32 = 0#32 :=
  ⟨keyed zeroKey rfcNonce 0x00000000FFFFFFFF#64, ⟨rfl, rfl⟩, by decide, by decide⟩

theorem witness_LastBlockSetsExhausted :
    (∃ s : State, readyForBlock s ∧ s.blkcnt = 0xFFFFFFFFFFFFFFFF#64 ∧ s.cursor.val = 64) ∧
      ∃ s : State, s.valid = true ∧ s.exh = true ∧ s.cursor.val = 64 :=
  ⟨⟨keyed zeroKey rfcNonce 0xFFFFFFFFFFFFFFFF#64, ⟨rfl, rfl⟩, rfl, rfl⟩, ⟨exhausted, rfl, rfl, rfl⟩⟩

theorem witness_NextblkErrorConditions :
    State.reset.valid = false ∧ (exhausted.valid = true ∧ exhausted.exh = true) ∧
      readyForBlock (keyed zeroKey zeroNonce 0#64) :=
  ⟨rfl, ⟨rfl, rfl⟩, rfl, rfl⟩

/-- V-CTR-3: words 12 and 13 both at 0xFFFFFFFF with the logical counter inside its space. -/
theorem witness_WordThirteenWrapsSilently :
    ∃ s : State, readyForBlock s ∧ s.blkcnt ≠ 0xFFFFFFFFFFFFFFFF#64 ∧ s.ws[12] = 0xFFFFFFFF#32 ∧
      s.ws[13] = 0xFFFFFFFF#32 :=
  ⟨keyed zeroKey #v[0xFFFFFFFF#32, 0#32, 0#32] 0x00000000FFFFFFFF#64, ⟨rfl, rfl⟩, by decide, by decide, by decide⟩

/-- One block from counter 2^64 - 2: the counter ends at 2^64 - 1, the last value the statement reaches. -/
theorem witness_CounterAdvanceCorrect :
    ∃ (s a : State) (cs : List Instr), exec .init s = .next a ∧ a.err = .ok ∧ .init ∉ cs ∧
      s.pctr.toNat + generations cs a = 2 ^ 64 - 1 :=
  ⟨staged zeroKey rfcNonce 0xFFFFFFFFFFFFFFFE#64, keyed zeroKey rfcNonce 0xFFFFFFFFFFFFFFFE#64, [.nextblk],
    exec_init_staged .., rfl, by decide, by decide +kernel⟩

theorem witness_CounterValueNeverReused :
    ∃ (s a t : State) (i j : Instr) (cs : List Instr),
      generates i s = true ∧ exec i s = .next a ∧ .init ∉ cs ∧ commands cs a = .next t ∧ generates j t = true :=
  have h : exec .nextblk (keyed zeroKey zeroNonce 0#64) = _ :=
    exec_of_effect (.nextblkDone (s := keyed zeroKey zeroNonce 0#64) rfl (.advance rfl (by decide)))
  ⟨keyed zeroKey zeroNonce 0#64, _, _, .nextblk, .xor 0#8, [], by decide, h, by decide, commands_nil _, by decide⟩

theorem witness_XorConsumesByteInBlock :
    ∀ p ∈ [(0 : Fin 64), 63], ∃ s : State, s.valid = true ∧ s.exh = true ∧ s.cursor.val = p.val := by
  simp only [List.forall_mem_cons, List.not_mem_nil, false_imp_iff, implies_true, and_true]
  exact ⟨⟨{ exhausted with cursor := 0 }, rfl, rfl, rfl⟩, ⟨{ exhausted with cursor := 63 }, rfl, rfl, rfl⟩⟩

theorem witness_XorRegeneratesLazily :
    (∃ s : State, readyForBlock s ∧ s.cursor.val = 64) ∧ ∃ s : State, s.valid = true ∧ s.cursor.val = 63 :=
  ⟨⟨keyed zeroKey zeroNonce 0#64, ⟨rfl, rfl⟩, rfl⟩, ⟨{ exhausted with cursor := 63 }, rfl, rfl⟩⟩

theorem witness_RefusedXorChangesOnlyErr :
    State.reset.valid = false ∧ (exhausted.valid = true ∧ exhausted.cursor.val = 64 ∧ exhausted.exh = true) :=
  ⟨rfl, rfl, rfl, rfl⟩

theorem witness_StreamingAgreesWithExtraction :
    ∀ m ∈ [(0 : Fin 64), 63], ∃ (s : State) (ds : List Byte),
      readyForBlock s ∧ s.cursor.val = 64 ∧ ds.length = m.val := by
  intro m _
  exact ⟨keyed zeroKey zeroNonce 0#64, List.replicate m.val 0#8, ⟨rfl, rfl⟩, rfl, List.length_replicate⟩

/-- The last byte of the last block: start at 2^64 - 1 with 63 bytes before it. -/
theorem witness_KeystreamPosition :
    ∃ (s a : State) (ds : List Byte), exec .init s = .next a ∧ a.err = .ok ∧ ds.length = 63 ∧
      s.pctr.toNat + ds.length / 64 = 2 ^ 64 - 1 :=
  ⟨staged zeroKey zeroNonce 0xFFFFFFFFFFFFFFFF#64, keyed zeroKey zeroNonce 0xFFFFFFFFFFFFFFFF#64,
    List.replicate 63 0#8, exec_init_staged .., rfl, by simp, by simp [staged]⟩

/-- Two cores at different addresses with the same key, nonce and start counter. -/
theorem witness_ApplyIsSelfInverse :
    ∃ s s' a a' : State, s ≠ s' ∧ s.pkey = s'.pkey ∧ s.pnonce = s'.pnonce ∧ s.pctr = s'.pctr ∧ s.inReset = false ∧
      s'.inReset = false ∧ exec .init s = .next a ∧ a.err = .ok ∧ exec .init s' = .next a' ∧ a'.err = .ok :=
  ⟨staged countingKey rfcNonce 1#64, { staged countingKey rfcNonce 1#64 with window := 1 },
    keyed countingKey rfcNonce 1#64, { keyed countingKey rfcNonce 1#64 with window := 1 },
    fun h => absurd (congrArg State.window h) (by decide), rfl, rfl, rfl, rfl, rfl, exec_init_staged .., rfl,
    exec_of_effect (.initDone (s := { staged countingKey rfcNonce 1#64 with window := 1 }) rfl rfl), rfl⟩

theorem witness_NextblkShiftsTheStream :
    (∃ s : State, readyForBlock s ∧ s.blkcnt ≠ 0xFFFFFFFFFFFFFFFF#64 ∧ s.cursor.val = 64) ∧
      ∀ p ∈ [(0 : Fin 64), 63],
        ∃ s : State, readyForBlock s ∧ s.blkcnt ≠ 0xFFFFFFFFFFFFFFFF#64 ∧ s.cursor.val = p.val := by
  refine ⟨⟨keyed zeroKey zeroNonce 0#64, ⟨rfl, rfl⟩, by decide, rfl⟩, ?_⟩
  simp only [List.forall_mem_cons, List.not_mem_nil, false_imp_iff, implies_true, and_true]
  exact ⟨⟨{ keyed zeroKey zeroNonce 0#64 with cursor := 0 }, ⟨rfl, rfl⟩, by decide, rfl⟩,
    ⟨{ keyed zeroKey zeroNonce 0#64 with cursor := 63 }, ⟨rfl, rfl⟩, by decide, rfl⟩⟩

theorem witness_ErrorPriority : placed.inReset = false := rfl

theorem witness_RefusedCommandChangesOnlyErr :
    ∃ t : State, writeCmd 0x00000101#32 State.reset = .next t ∧ t.err ≠ .ok :=
  ⟨State.reset.setErr .illegalCommand, rfl, by decide⟩

/-- The three clauses: a NEXTBLK at counter 2^64 - 1 sets `EXH`; an exhausted core; an exhausted core whose next input
asserts reset. -/
theorem witness_ExhaustedFlagIsSticky :
    (∃ s t : State, s.exh = false ∧ step s = .next t ∧ t.exh = true) ∧
      (∃ s : State, s.valid = true ∧ s.exh = true ∧ s.cursor.val = 64) ∧
      ∃ s t : State, s.exh = true ∧ step s = .next t ∧ t.exh = false :=
  have h : exec .nextblk ((keyed zeroKey zeroNonce 0xFFFFFFFFFFFFFFFF#64).respond .writeDone) = _ :=
    exec_of_effect (.nextblkDone (s := (keyed zeroKey zeroNonce 0xFFFFFFFFFFFFFFFF#64).respond .writeDone) rfl
      (.exhaust rfl rfl))
  ⟨⟨(keyed zeroKey zeroNonce 0xFFFFFFFFFFFFFFFF#64).withFetchWord 32 2, _, rfl, h, rfl⟩,
    ⟨exhausted, rfl, rfl, rfl⟩,
    ⟨{ exhausted with pending := [.resetAssert] }, _, rfl, rfl, rfl⟩⟩

/-- A step that is neither a successful INIT nor a reset, and one that is a successful INIT. -/
theorem witness_KeyNonceAndStartFixed :
    (∃ s t : State, step s = .next t ∧ ¬ initSucceedsNext s ∧ ¬ resetNext s) ∧ initSucceedsNext aboutToInit := by
  refine ⟨⟨{ placed with pending := [.access (.read 0x138 .w32)] }, _, rfl, ?_, ?_⟩, rfl, ⟨rfl, rfl⟩, [], rfl⟩
  · rintro ⟨-, -, rest, h⟩
    simp at h
  · rintro ⟨rest, h⟩
    simp at h

theorem witness_OnlyInitAndAdvanceWriteWs :
    ∃ s t : State, step s = .next t ∧ ¬ initSucceedsNext s ∧ ¬ resetNext s ∧ t.blkcnt = s.blkcnt := by
  refine ⟨{ placed with pending := [.access (.read 0x138 .w32)] }, _, rfl, ?_, ?_, rfl⟩
  · rintro ⟨-, -, rest, h⟩
    simp at h
  · rintro ⟨rest, h⟩
    simp at h

theorem witness_StagingWritesDoNotReachCipherState :
    placed.inReset = false ∧ ∀ off ∈ [0x000, 0x01C, 0x020, 0x028, 0x02C, 0x030], off ≤ 0x030 ∧ off % 4 = 0 := by
  decide

theorem witness_StagingSurvivesCommands :
    ∃ s t : State, step s = .next t ∧ ¬ resetNext s ∧ s.keymask.getLsbD 7 = true ∧ s.noncemask.getLsbD 2 = true := by
  refine ⟨staged countingKey rfcNonce 1#64, _, rfl, ?_, by decide, by decide⟩
  rintro ⟨rest, h⟩
  simp [staged, State.reset] at h

/-- A core with a cipher state and a key word about to be staged anew. -/
theorem witness_EveryStepKeepsInvariant :
    ∃ s t : State, s.valid = true ∧ Safety.Inv s ∧ step s = .next t := by
  refine ⟨{ keyed countingKey rfcNonce 1#64 with pending := [.access (.write 0x000 (.b32 5#32))] }, _, rfl, ?_, rfl⟩
  constructor
  · exact fun _ => rfl
  · exact fun _ => Nat.le_refl _
  · exact fun _ => ⟨rfl, rfl⟩
  · exact fun h => absurd h (by decide)
  · exact fun _ h => absurd (by decide) h
  · exact fun _ _ => ⟨rfl, rfl, rfl⟩
  · exact fun h => absurd h (by decide)
  · intro i h
    revert i
    decide
  · intro j h
    revert j
    decide
  · exact fun h => absurd h (by decide)
  · exact fun h => absurd h (by decide)
  · exact fun h => absurd h (by decide)

/-- A run from reset with the accesses of SETUP pending leaves a cipher state. -/
theorem witness_CounterInvariantReachable :
    (nextOf (Host.Core.run Sys2Proof.core 14
      { State.reset with
        window := 0
        pending := (setup 0 (Vector.replicate 32 7#8) (Vector.replicate 12 9#8) 5#64).map .access })).map
      (fun t : State => t.valid) = some true := by
  decide +kernel

/-- Two cores at 0x000 and 0x100: an access to the second is claimed by it and not by the first. -/
theorem witness_InstancesShareNothing :
    ∃ (y : System) (a : BusAccess) (s u : State), y.wf = true ∧ y.cores[0]? = some s ∧ s.claims a = false ∧
      y.cores[1]? = some u ∧ u.claims a = true :=
  ⟨⟨[State.reset, placed]⟩, .write 0x134 (.b32 0x00000002#32), State.reset, placed, by decide, rfl, by decide, rfl,
    by decide⟩

end Sys2Proof.Tests
end

/-! PROOFS, family 10_state.md. The bits of STATUS, what one step can do to the cipher state, and the statements about
STATUS, `EXH` and the elements that only INIT and reset write. -/

namespace Sys2Proof.Machine

open Sys2Proof.Safety

/-! ### The bits of STATUS -/

@[simp] theorem flagBit_getElem_zero (b : Bool) : (flagBit b)[0] = b := by
  cases b <;> rfl

/-- Bit `i` of STATUS, by the element of the state it shows (10_state.md R31). -/
def State.statusBit (s : State) (i : Nat) : Bool :=
  if i = 0 then s.valid
  else if i = 1 then s.exh
  else if i < 4 then false
  else if i < 7 then s.err.code.getLsbD (i - 4)
  else if i = 7 then false
  else if i < 16 then s.keymask.getLsbD (i - 8)
  else if i < 19 then s.noncemask.getLsbD (i - 16)
  else false

/-- The word that `statusWord` shifts together shows each element at its place: no two parts overlap. -/
theorem statusWord_getLsbD (s : State) {i : Nat} (hi : i < 32) : s.statusWord.getLsbD i = s.statusBit i := by
  simp only [State.statusWord, zext32, BitVec.getLsbD_or, BitVec.getLsbD_shiftLeft, BitVec.getLsbD_setWidth]
  interval_cases i <;> simp [State.statusBit]

/-- A field of STATUS is read off bit by bit. -/
theorem statusWord_field {s : State} {lsb n : Nat} {v : BitVec n} (hn : lsb + n ≤ 32)
    (h : ∀ k < n, s.statusBit (lsb + k) = v.getLsbD k) : s.statusWord.extractLsb' lsb n = v := by
  apply BitVec.eq_of_getLsbD_eq
  intro k hk
  rw [BitVec.getLsbD_extractLsb', decide_eq_true hk, Bool.true_and, statusWord_getLsbD s (by omega), h k hk]

theorem statusWord_err (s : State) : s.statusWord.extractLsb' 4 3 = s.err.code :=
  statusWord_field (by decide) fun k hk => by interval_cases k <;> rfl

theorem statusWord_keymask (s : State) : s.statusWord.extractLsb' 8 8 = s.keymask :=
  statusWord_field (by decide) fun k hk => by interval_cases k <;> rfl

theorem statusWord_noncemask (s : State) : s.statusWord.extractLsb' 16 3 = s.noncemask :=
  statusWord_field (by decide) fun k hk => by interval_cases k <;> rfl

theorem statusWord_reserved_low (s : State) : s.statusWord.extractLsb' 2 2 = 0#2 :=
  statusWord_field (by decide) fun k hk => by interval_cases k <;> rfl

theorem statusWord_reserved_high (s : State) : s.statusWord.extractLsb' 19 13 = 0#13 :=
  statusWord_field (by decide) fun k hk => by interval_cases k <;> rfl

/-- Settles O22: a read of STATUS answers `statusWord`, whose bits are those of `statusBit`. -/
theorem statusFieldsReadState : Obligations.StatusFieldsReadState := by
  intro s hz
  refine ⟨⟨s.statusWord, access_read_reg s .status hz, statusWord_getLsbD s (by decide),
    statusWord_getLsbD s (by decide), statusWord_reserved_low s, ?_, statusWord_getLsbD s (by decide),
    statusWord_keymask s, statusWord_noncemask s, statusWord_reserved_high s⟩,
    fun v => access_write_reg s .status v hz⟩
  rw [statusWord_err]
  cases s.err <;> rfl

/-! ### What one step can do to the cipher state -/

/-- The one word that is INIT (30_encoding.md R61). -/
theorem decode_eq_init_iff {w : Word} : decode w = .ok .init ↔ w = 0x00000001#32 := by
  have hrow : rowInit.accepts w = true ↔ w = 0x00000001#32 := by
    rw [OpcodeRow.accepts, beq_iff_eq, rowInit, show (0xFFFFFFFF#32 : Word) = BitVec.allOnes 32 from rfl,
      BitVec.and_allOnes]
  rw [← hrow, decode]
  cases rowInit.accepts w with
  | true => simp
  | false => cases rowNextblk.accepts w <;> cases rowXor.accepts w <;> simp

/-- What a step does to the counter and its two working-state words when it neither builds a cipher state nor resets:
nothing, or a block is generated (41_block_transform.md R92, R93). -/
inductive CounterMove (s t : State) : Prop where
  | kept (hexh : t.exh = s.exh) (hblkcnt : t.blkcnt = s.blkcnt) (hws : t.ws = s.ws)
  | advanced (hfree : s.exh = false) (hmore : s.blkcnt ≠ 0xFFFFFFFFFFFFFFFF#64) (hok : t.err = .ok)
      (hexh : t.exh = false) (hblkcnt : t.blkcnt = s.blkcnt + 1#64) (hws : t.ws = advanceWords s.ws)
  | exhausted (hfree : s.exh = false) (hlast : s.blkcnt = 0xFFFFFFFFFFFFFFFF#64) (hok : t.err = .ok)
      (hexh : t.exh = true) (hblkcnt : t.blkcnt = s.blkcnt) (hws : t.ws = s.ws)

/-- `t` continues the cipher state of `s`: its key, nonce, start counter and validity stand, and the counter moves as
`CounterMove` says. -/
structure Continues (s t : State) : Prop where
  key : t.key = s.key
  nonce : t.nonce = s.nonce
  sctr : t.sctr = s.sctr
  valid : t.valid = s.valid
  counter : CounterMove s t

/-- A change that reaches neither the cipher state nor the flag `EXH`. -/
theorem Continues.of_kept {s t : State} (hkey : t.key = s.key) (hnonce : t.nonce = s.nonce) (hsctr : t.sctr = s.sctr)
    (hvalid : t.valid = s.valid) (hexh : t.exh = s.exh) (hblkcnt : t.blkcnt = s.blkcnt) (hws : t.ws = s.ws) :
    Continues s t :=
  ⟨hkey, hnonce, hsctr, hvalid, .kept hexh hblkcnt hws⟩

/-- What the host's side of the bus held before is of no account. -/
theorem Continues.of_hostSide {s t : State} {p : List Input} {r : Option BusResponse}
    (h : Continues { s with pending := p, response := r } t) : Continues s t := by
  obtain ⟨hkey, hnonce, hsctr, hvalid, hmove⟩ := h
  refine ⟨hkey, hnonce, hsctr, hvalid, ?_⟩
  cases hmove with
  | kept hexh hblkcnt hws => exact .kept hexh hblkcnt hws
  | advanced hfree hmore hok hexh hblkcnt hws => exact .advanced hfree hmore hok hexh hblkcnt hws
  | exhausted hfree hlast hok hexh hblkcnt hws => exact .exhausted hfree hlast hok hexh hblkcnt hws

/-- A command that generates a block in `u` and ends in success continues the cipher state, whatever it does to `DOUT`
and `CURSOR` after the block. -/
theorem Generation.continues {s u : State} (hg : Generation s u) (d : Byte) (c : Fin 65) :
    Continues s { u with dout := d, cursor := c, err := .ok } := by
  cases hg with
  | advance he hc => exact ⟨rfl, rfl, rfl, rfl, .advanced he hc rfl he rfl rfl⟩
  | exhaust he hc => exact ⟨rfl, rfl, rfl, rfl, .exhausted he hc rfl rfl rfl rfl⟩

/-- Every command but an INIT that succeeds continues the cipher state. -/
theorem Effect.init_or_continues {i : Instr} {s t : State} (h : Effect i s t) :
    (i = .init ∧ readyForInit s) ∨ Continues s t := by
  cases h with
  | initDone hk hn => exact .inl ⟨rfl, hk, hn⟩
  | nextblkDone hv hg => exact .inr (hg.continues _ _)
  | xorNewBlock d hv hc hg => exact .inr (hg.continues _ _)
  | _ => exact .inr (.of_kept rfl rfl rfl rfl rfl rfl rfl)

/-- Every access but the write of an INIT that succeeds continues the cipher state. -/
theorem AccessEffect.init_or_continues {a : BusAccess} {s t : State} (h : AccessEffect a s t) :
    (s.inReset = false ∧ readyForInit s ∧ a = .write (s.base + Reg.cmd.offset) (.b32 0x00000001#32)) ∨
      Continues s t := by
  cases h with
  | command w i hz ha hd he =>
    obtain ⟨rfl, hready⟩ | hcont := (exec_iff.1 he).init_or_continues
    · obtain rfl := decode_eq_init_iff.1 hd
      exact .inl ⟨hz, hready, ha⟩
    · exact .inr (.of_hostSide hcont)
  | _ => exact .inr (.of_kept rfl rfl rfl rfl rfl rfl rfl)

/-- Every step is a successful INIT, a reset, or continues the cipher state. -/
theorem step_init_reset_or_continues {s t : State} (h : step s = .next t) :
    initSucceedsNext s ∨ resetNext s ∨ Continues s t := by
  obtain ⟨-, rfl⟩ | ⟨a, rest, hp, ha⟩ | ⟨rest, hp, -⟩ | ⟨rest, -, rfl⟩ := step_cases h
  · exact .inr (.inr (.of_kept rfl rfl rfl rfl rfl rfl rfl))
  · obtain ⟨hz, hready, rfl⟩ | hcont := ha.init_or_continues
    · exact .inl ⟨hz, hready, rest, hp⟩
    · exact .inr (.inr (.of_hostSide hcont))
  · exact .inr (.inl ⟨rest, hp⟩)
  · exact .inr (.inr (.of_kept rfl rfl rfl rfl rfl rfl rfl))

/-- A step whose input is a successful INIT builds the cipher state from the staging registers (40_init.md R72). -/
theorem step_of_initSucceedsNext {s : State} (h : initSucceedsNext s) :
    ∃ rest, step s = .next (((s.withPending rest).respond .writeDone).buildCipher.setErr .ok) := by
  obtain ⟨hz, ⟨hk, hn⟩, rest, hp⟩ := h
  refine ⟨rest, ?_⟩
  calc step s
      = access (.write (s.base + Reg.cmd.offset) (.b32 0x00000001#32)) (s.withPending rest) := step_of_pending hp
    _ = writeCmd 0x00000001#32 ((s.withPending rest).respond .writeDone) :=
        access_write_reg (s.withPending rest) .cmd _ hz
    _ = exec .init ((s.withPending rest).respond .writeDone) := by rw [writeCmd, decode_eq_init_iff.2 rfl]
    _ = _ := exec_of_effect (.initDone hk hn)

/-- A step whose input asserts reset resets the core (70_reset_and_hazards.md R131). -/
theorem step_of_resetNext {s : State} (h : resetNext s) :
    ∃ rest, step s = .next (s.withPending rest).assertReset := by
  obtain ⟨rest, hp⟩ := h
  exact ⟨rest, step_of_pending hp⟩

/-! ### The exhausted flag, and the elements that only INIT and reset write -/

/-- `EXH` is clear after a successful INIT and after reset. -/
theorem step_exh_eq_false {s t : State} (hin : initSucceedsNext s ∨ resetNext s) (h : step s = .next t) :
    t.exh = false := by
  obtain hinit | hreset := hin
  · obtain ⟨rest, hs⟩ := step_of_initSucceedsNext hinit
    obtain rfl := Host.Outcome.next.inj (hs.symm.trans h)
    rfl
  · obtain ⟨rest, hs⟩ := step_of_resetNext hreset
    obtain rfl := Host.Outcome.next.inj (hs.symm.trans h)
    rfl

/-- Settles O52: of the ways a step can go, only the exhausting block sets `EXH`, and only INIT and reset clear it. -/
theorem exhaustedFlagIsSticky : Obligations.ExhaustedFlagIsSticky := by
  refine ⟨?set, ?refused, ?cleared⟩
  case set =>
    intro s t hs h ht
    obtain hinit | hreset | hcont := step_init_reset_or_continues h
    · simp [step_exh_eq_false (.inl hinit) h] at ht
    · simp [step_exh_eq_false (.inr hreset) h] at ht
    · cases hcont.counter with
      | kept hexh => simp [hexh, hs] at ht
      | advanced _ _ _ hexh => simp [hexh] at ht
      | exhausted _ hlast hok => exact ⟨hlast, hok⟩
  case refused =>
    intro s hv he
    exact ⟨exec_of_effect (.nextblkExhausted hv he), fun d hc => exec_of_effect (.xorExhausted d hv hc he)⟩
  case cleared =>
    intro s t hs h ht
    obtain hinit | hreset | hcont := step_init_reset_or_continues h
    · exact .inl hinit
    · exact .inr hreset
    · cases hcont.counter with
      | kept hexh => simp [hexh, hs] at ht
      | advanced hfree => simp [hs] at hfree
      | exhausted hfree => simp [hs] at hfree

/-- Settles O53: any other step continues the cipher state, and a successful INIT builds it from staging. -/
theorem keyNonceAndStartFixed : Obligations.KeyNonceAndStartFixed := by
  constructor
  · intro s t h hinit hreset
    have hcont : Continues s t := ((step_init_reset_or_continues h).resolve_left hinit).resolve_left hreset
    exact ⟨hcont.key, hcont.nonce, hcont.sctr, hcont.valid⟩
  · intro s hinit
    obtain ⟨rest, hs⟩ := step_of_initSucceedsNext hinit
    exact ⟨_, hs, rfl, rfl, rfl, rfl⟩

end Sys2Proof.Machine

/-! PROOFS, family 20_memory.md. An access at a legal offset, an access at an illegal address, and the offsets where a
write is ignored; then the statements about the register window. -/

namespace Sys2Proof.Machine

open Sys2Proof.Safety

/-! ### Where an access is made -/

/-- A 32-bit read at a legal address is made at its offset (20_memory.md R43). -/
theorem access_read_offset (s : State) {off : Nat} (hlt : off < 256) (h4 : off % 4 = 0) :
    access (.read (s.base + off) .w32) s = read32 off s := by
  simp only [access, offsetOf_base_add s hlt h4]

/-- A 32-bit write at a legal address is made at its offset (20_memory.md R44). -/
theorem access_write_offset (s : State) {off : Nat} (v : Word) (hlt : off < 256) (h4 : off % 4 = 0) :
    access (.write (s.base + off) (.b32 v)) s = write32 off v s := by
  simp only [access, offsetOf_base_add s hlt h4]

/-- An address that is no `BASE + off` with a legal `off` names no offset (20_memory.md R45). -/
theorem offsetOf_eq_none_of_illegal {s : State} {addr : Nat}
    (h : ¬ ∃ off, off ≤ 0x0FC ∧ off % 4 = 0 ∧ addr = s.base + off) : offsetOf s addr = none := by
  rw [Option.eq_none_iff_forall_ne_some]
  intro off ho
  obtain ⟨haddr, hlt, h4⟩ := offsetOf_eq_some_iff.1 ho
  exact h ⟨off, by omega, h4, haddr⟩

theorem read_answersBusError {s : State} {addr : Nat} (h : offsetOf s addr = none) :
    answersBusError s (.read addr .w32) := by
  simp only [answersBusError, access, h]
  rfl

theorem write_answersBusError {s : State} {addr : Nat} (h : offsetOf s addr = none) (v : Word) :
    answersBusError s (.write addr (.b32 v)) := by
  simp only [answersBusError, access, h]
  rfl

/-! ### What a write does to the answer -/

/-- The command in a write of CMD leaves the answer to the write as it is. -/
theorem writeCmd_response {w : Word} {s t : State} (h : writeCmd w s = .next t) : t.response = s.response := by
  unfold writeCmd at h
  cases hd : decode w with
  | ok i =>
    rw [hd] at h
    exact (exec_sameOutside h).response
  | error e =>
    rw [hd] at h
    cases h
    rfl

/-- Every write of a register is taken, and leaves the answer to it as it is. -/
theorem writeReg_next_response (r : Reg) (v : Word) (s : State) :
    ∃ t, writeReg r v s = .next t ∧ t.response = s.response := by
  cases r with
  | cmd =>
    obtain ⟨t, ht⟩ := writeCmd_next v s
    exact ⟨t, ht, writeCmd_response ht⟩
  | _ => exact ⟨_, rfl, rfl⟩

/-- The same of a write at any offset. -/
theorem writeOffset_next_response (off : Nat) (v : Word) (s : State) :
    ∃ t, writeOffset off v s = .next t ∧ t.response = s.response := by
  unfold writeOffset
  cases regAt off with
  | none => exact ⟨s, rfl, rfl⟩
  | some r => exact writeReg_next_response r v s

/-- A 32-bit write in the window is answered as taken, whatever the level of the reset input. -/
theorem write32_next_response (off : Nat) (v : Word) (s : State) :
    ∃ t, write32 off v s = .next t ∧ t.response = some .writeDone := by
  unfold write32
  cases s.inReset with
  | true => exact ⟨_, rfl, rfl⟩
  | false => exact writeOffset_next_response off v (s.respond .writeDone)

/-! ### Offsets that ignore a write, and reserved offsets -/

/-- The registers from STATUS on are read-only (20_memory.md R41). -/
theorem writeReg_of_readOnly {r : Reg} (h : 0x038 ≤ r.offset) (v : Word) (s : State) : writeReg r v s = .next s := by
  cases r with
  | keyw i =>
    simp only [Reg.offset] at h
    omega
  | noncew j =>
    simp only [Reg.offset] at h
    omega
  | ctrwLo => exact absurd h (by decide)
  | ctrwHi => exact absurd h (by decide)
  | cmd => exact absurd h (by decide)
  | _ => rfl

/-- From the offset of STATUS on, every offset is read-only or reserved (20_memory.md R39). -/
theorem writeOffset_of_readOnly {off : Nat} (h : 0x038 ≤ off) (hlt : off < 256) (h4 : off % 4 = 0) (v : Word)
    (s : State) : writeOffset off v s = .next s := by
  unfold writeOffset
  cases hr : regAt off with
  | none => rfl
  | some r =>
    obtain rfl := offset_of_regAt hlt h4 hr
    exact writeReg_of_readOnly h v s

/-- A write there is taken and ignored, whatever the level of the reset input. -/
theorem writeLeadsTo_of_readOnly {off : Nat} (h : 0x038 ≤ off) (hlt : off < 256) (h4 : off % 4 = 0) (v : Word)
    (s : State) : writeLeadsTo s off v { s with response := some .writeDone } := by
  rw [writeLeadsTo, access_write_offset s v hlt h4, write32, writeOffset_of_readOnly h hlt h4, ite_self]
  rfl

/-- A reserved offset reads 0, whatever the level of the reset input (20_memory.md R40). -/
theorem readsAs_zero_of_reserved {off : Nat} (hlt : off < 256) (h4 : off % 4 = 0) (hr : regAt off = none) (s : State) :
    readsAs s off 0#32 := by
  have hzero : readOffset off s = 0#32 := by simp only [readOffset, hr]
  rw [readsAs, access_read_offset s hlt h4, read32, hzero, ite_self]
  rfl

/-! ### The statements -/

/-- Settles O11: an illegal access names no offset of the window, and one at an offset is answered. -/
theorem busErrorChangesNothing : Obligations.BusErrorChangesNothing := by
  intro s _
  refine ⟨?width, fun _ _ => rfl, fun _ _ => rfl, fun _ _ => rfl, ?illegal, ?legal⟩
  case width =>
    intro addr w hw
    cases w with
    | w32 => exact absurd rfl hw
    | _ => rfl
  case illegal =>
    intro addr h
    have hnone : offsetOf s addr = none := offsetOf_eq_none_of_illegal h
    exact ⟨read_answersBusError hnone, write_answersBusError hnone⟩
  case legal =>
    intro off hle h4
    have hlt : off < 256 := by omega
    refine ⟨⟨_, _, access_read_offset s hlt h4, rfl⟩, fun v => ?_⟩
    rw [access_write_offset s v hlt h4]
    exact write32_next_response off v s

/-- Settles O15: no register stands at a reserved offset, and all of them lie beyond the last writable register. -/
theorem reservedOffsetsReadZero : Obligations.ReservedOffsetsReadZero := by
  intro s off h4 hres
  have hlt : off < 256 := by omega
  have hnone : regAt off = none := (regAt_eq_none_iff hlt h4).2 (by omega)
  exact ⟨readsAs_zero_of_reserved hlt h4 hnone s, fun v => writeLeadsTo_of_readOnly (by omega) hlt h4 v s⟩

/-- Settles O13: each row of the map is the read of its register, and the reserved rows are those of O15. -/
theorem readReturnsRegisterMap : Obligations.ReadReturnsRegisterMap := by
  intro s hz
  have read (r : Reg) : readsAs s r.offset (readReg r s) := access_read_reg s r hz
  exact ⟨fun i => read (.keyw i), fun j => read (.noncew j), read .ctrwLo, read .ctrwHi, read .cmd, read .status,
    read .dout, read .cursor, read .blkcntLo, read .blkcntHi, read .sctrLo, read .sctrHi, read .ws12, read .ws13,
    fun k => read (.ks k), fun off h4 hres => (reservedOffsetsReadZero s off h4 hres).1⟩

/-- Settles O14: each writable row is the write of its register, and the others ignore a write. -/
theorem writesFollowRegisterMap : Obligations.WritesFollowRegisterMap := by
  intro s v hz
  exact ⟨fun i => access_write_reg s (.keyw i) v hz, fun j => access_write_reg s (.noncew j) v hz,
    access_write_reg s .ctrwLo v hz, access_write_reg s .ctrwHi v hz, access_write_reg s .cmd v hz,
    fun off h hle h4 => writeLeadsTo_of_readOnly h (by omega) h4 v s⟩

end Sys2Proof.Machine

/-! PROOFS, family 30_encoding.md. The opcode map read on the fields of a word: the decoder answers a command exactly
when the fields are that command's. Then the statements about the decoder and about the write of a word to CMD. -/

namespace Sys2Proof

/-! ### The fields of a word -/

/-- A word is its three fields (30_encoding.md R59). -/
@[simp] theorem wordOf_fieldsOf (w : Word) : wordOf (fieldsOf w) = w := by
  simp only [wordOf, fieldsOf]
  rw [BitVec.extractLsb'_append_extractLsb'_eq_extractLsb' (by decide),
    BitVec.extractLsb'_append_extractLsb'_eq_extractLsb' (by decide)]
  exact BitVec.extractLsb'_eq_self

theorem fieldsOf_inj {w v : Word} : fieldsOf w = fieldsOf v ↔ w = v :=
  (Function.LeftInverse.injective wordOf_fieldsOf).eq_iff

/-- A mask acts on each field by itself. -/
theorem fieldsOf_and (w m : Word) :
    fieldsOf (w &&& m) =
      ⟨(fieldsOf w).op &&& (fieldsOf m).op, (fieldsOf w).din &&& (fieldsOf m).din,
        (fieldsOf w).rsv &&& (fieldsOf m).rsv⟩ := by
  simp only [fieldsOf, BitVec.extractLsb'_and]

/-- Well-formed fields are the fields of some command (30_encoding.md R63). -/
theorem CommandFields.wf_iff {f : CommandFields} : f.wf = true ↔ ∃ i : Instr, f = i.fields := by
  obtain ⟨op, din, rsv⟩ := f
  constructor
  · intro h
    simp only [wf, opKnown, rsvZero, dinAllowed, Bool.and_eq_true, Bool.or_eq_true, beq_iff_eq] at h
    obtain ⟨⟨(rfl | rfl) | rfl, rfl⟩, hdin⟩ := h
    · obtain rfl : din = 0#8 := hdin.resolve_left (by decide)
      exact ⟨.init, rfl⟩
    · obtain rfl : din = 0#8 := hdin.resolve_left (by decide)
      exact ⟨.nextblk, rfl⟩
    · exact ⟨.xor din, rfl⟩
  · rintro ⟨i, h⟩
    rw [h]
    cases i <;> rfl

/-- The three lines of 30_encoding.md R63. -/
theorem CommandFields.not_wf_iff {f : CommandFields} :
    ¬ f.wf = true ↔
      (f.op = 0x00#8 ∨ 0x04 ≤ f.op.toNat) ∨
      ((f.op = 0x01#8 ∨ f.op = 0x02#8) ∧ (f.din ≠ 0#8 ∨ f.rsv ≠ 0#16)) ∨
      (f.op = 0x03#8 ∧ f.rsv ≠ 0#16) := by
  have hop : f.op = 0x00#8 ∨ 0x04 ≤ f.op.toNat ↔ ¬ (f.op = 0x01#8 ∨ f.op = 0x02#8 ∨ f.op = 0x03#8) := by
    simp only [← BitVec.toNat_inj, BitVec.toNat_ofNat]
    omega
  have hshort : f.op = 0x01#8 ∨ f.op = 0x02#8 → f.op ≠ 0x03#8 := by
    rintro (h | h) <;> simp [h]
  rw [hop]
  simp only [wf, opKnown, rsvZero, dinAllowed, Bool.and_eq_true, Bool.or_eq_true, beq_iff_eq]
  tauto

/-! ### The rows of the opcode map, and the decoder -/

/-- A row accepts `w` when `w & mask = match` (30_encoding.md R61). -/
theorem OpcodeRow.accepts_iff {r : OpcodeRow} {w : Word} : r.accepts w = true ↔ w &&& r.mask = r.value :=
  beq_iff_eq

/-- A row that masks no bit accepts its own word only. -/
theorem OpcodeRow.accepts_iff_eq {r : OpcodeRow} {w : Word} (hm : r.mask = BitVec.allOnes 32) :
    r.accepts w = true ↔ w = r.value := by
  rw [accepts_iff, hm, BitVec.and_allOnes]

theorem rowInit_accepts_iff {w : Word} : rowInit.accepts w = true ↔ fieldsOf w = Instr.init.fields :=
  (OpcodeRow.accepts_iff_eq rfl).trans fieldsOf_inj.symm

theorem rowNextblk_accepts_iff {w : Word} : rowNextblk.accepts w = true ↔ fieldsOf w = Instr.nextblk.fields :=
  (OpcodeRow.accepts_iff_eq rfl).trans fieldsOf_inj.symm

/-- The XOR row masks out `DIN` and nothing else, so `DIN` may be any byte. -/
theorem rowXor_accepts_iff {w : Word} :
    rowXor.accepts w = true ↔ fieldsOf w = (Instr.xor (fieldsOf w).din).fields := by
  have hmask : fieldsOf rowXor.mask = ⟨BitVec.allOnes 8, 0#8, BitVec.allOnes 16⟩ := by decide
  have hvalue : fieldsOf rowXor.value = ⟨0x03#8, 0#8, 0#16⟩ := by decide
  rw [OpcodeRow.accepts_iff, ← fieldsOf_inj, fieldsOf_and, hmask, hvalue]
  obtain ⟨op, din, rsv⟩ := fieldsOf w
  simp only [BitVec.and_allOnes, BitVec.and_zero, Instr.fields, CommandFields.mk.injEq, true_and]

/-- The decoder answers the command whose fields the word holds. -/
theorem decode_eq_ok_iff {w : Word} {i : Instr} : decode w = .ok i ↔ fieldsOf w = i.fields := by
  constructor
  · intro h
    unfold decode at h
    split_ifs at h with hinit hnextblk hxor <;> cases h
    · exact rowInit_accepts_iff.1 hinit
    · exact rowNextblk_accepts_iff.1 hnextblk
    · exact rowXor_accepts_iff.1 hxor
  · intro h
    cases i <;> simp [decode, rowInit_accepts_iff, rowNextblk_accepts_iff, rowXor_accepts_iff, h, Instr.fields]

/-- The decoder refuses the words whose fields are ill-formed. -/
theorem exists_decode_eq_error_iff {w : Word} : (∃ e, decode w = .error e) ↔ ¬ (fieldsOf w).wf = true := by
  rw [CommandFields.wf_iff]
  simp only [← decode_eq_ok_iff]
  cases decode w <;> simp

/-- Settles O3: the fields of a word are those of a command exactly when the row of that command accepts it. -/
theorem decodeFollowsOpcodeMap : Obligations.DecodeFollowsOpcodeMap := by
  intro w
  refine ⟨?init, ?nextblk, fun d => ?xor⟩
  case init => exact (decode_eq_ok_iff.trans rowInit_accepts_iff.symm).trans OpcodeRow.accepts_iff
  case nextblk => exact (decode_eq_ok_iff.trans rowNextblk_accepts_iff.symm).trans OpcodeRow.accepts_iff
  case xor =>
    have hrow : w &&& 0xFFFF00FF#32 = 0x00000003#32 ↔ fieldsOf w = (Instr.xor (fieldsOf w).din).fields :=
      OpcodeRow.accepts_iff.symm.trans rowXor_accepts_iff
    rw [decode_eq_ok_iff, hrow]
    constructor
    · intro h
      obtain rfl : (fieldsOf w).din = d := congrArg CommandFields.din h
      exact ⟨h, rfl⟩
    · rintro ⟨h, rfl⟩
      exact h

end Sys2Proof

namespace Sys2Proof.Machine

/-! ### The write of a word to CMD -/

/-- A word that decodes is executed (30_encoding.md R62). -/
theorem writeCmd_of_ok {w : Word} {i : Instr} (hd : decode w = .ok i) (s : State) : writeCmd w s = exec i s := by
  rw [writeCmd, hd]

/-- A word that does not decode raises IllegalCommand (60_exceptions.md R114). -/
theorem writeCmd_of_error {w : Word} {e : DecodeError} (hd : decode w = .error e) (s : State) :
    writeCmd w s = .next (s.setErr .illegalCommand) := by
  rw [writeCmd, hd]
  rfl

/-- A write of CMD while the reset input is released is the write of a command word (20_memory.md R44). -/
theorem access_write_cmd {s : State} (hz : s.inReset = false) (w : Word) :
    access (.write (s.base + 0x034) (.b32 w)) s = writeCmd w (s.respond .writeDone) :=
  access_write_reg s .cmd w hz

/-- Settles O4: the refused words are those with ill-formed fields, and the write of one only raises IllegalCommand. -/
theorem illegalWordsRefused : Obligations.IllegalWordsRefused := by
  intro w
  constructor
  · exact exists_decode_eq_error_iff.trans CommandFields.not_wf_iff
  · intro s e hz hd
    exact (access_write_cmd hz w).trans (writeCmd_of_error hd _)

/-- Settles O7: the first row that accepts the word names the command that runs, and with none the word is illegal. -/
theorem cmdWriteDecodesOnce : Obligations.CmdWriteDecodesOnce := by
  intro s w hz
  obtain ⟨hinit, hnextblk, hxor⟩ := decodeFollowsOpcodeMap w
  rw [access_write_cmd hz]
  split_ifs with rowOne rowTwo rowThree
  · exact writeCmd_of_ok (hinit.2 rowOne) _
  · exact writeCmd_of_ok (hnextblk.2 rowTwo) _
  · exact writeCmd_of_ok ((hxor _).2 ⟨rowThree, rfl⟩) _
  · cases hd : decode w with
    | ok i =>
      cases i with
      | init => exact absurd (hinit.1 hd) rowOne
      | nextblk => exact absurd (hnextblk.1 hd) rowTwo
      | xor d => exact absurd ((hxor d).1 hd).1 rowThree
    | error e => exact writeCmd_of_error hd _

end Sys2Proof.Machine

/-! PROOFS, family 40_init.md. The layout INIT gives the working state, the end of a successful INIT, and the
statements about a successful and a refused INIT. -/

namespace Sys2Proof.Machine

open Sys2Proof.Safety

/-- Where each word of the working state comes from: the table of 40_init.md R74 with the constants of R73 and the two
halves of the counter written out. -/
theorem workingState_layout (k : Vector Word 8) (n : Vector Word 3) (c : Word64) :
    workingState k n c =
      #v[0x61707865#32, 0x3320646E#32, 0x79622D32#32, 0x6B206574#32,
        k[0], k[1], k[2], k[3], k[4], k[5], k[6], k[7],
        c.extractLsb' 0 32, n[0] + c.extractLsb' 32 32, n[1], n[2]] :=
  rfl

/-- With all key and nonce words supplied, INIT passes both of its checks and builds the cipher state (40_init.md
R72). -/
theorem exec_init_of_ready {s : State} (h : readyForInit s) : exec .init s = .next (s.buildCipher.setErr .ok) := by
  obtain ⟨hkey, hnonce⟩ := h
  exact exec_of_effect (.initDone hkey hnonce)

/-- Settles O23: INIT ends in `buildCipher` and `ERR <- 0`, whose only computed field is the working state. -/
theorem initBuildsCipherState : Obligations.InitBuildsCipherState := by
  intro s h
  rw [exec_init_of_ready h, ← workingState_layout]
  rfl

/-- Settles O24: a missing key word refuses INIT whatever the nonce; with the key whole a missing nonce word does. Each
refusal only sets `ERR`. -/
theorem refusedInitChangesOnlyErr : Obligations.RefusedInitChangesOnlyErr := by
  intro s
  constructor
  · intro hkey
    exact exec_of_effect (.initNoKey hkey)
  · intro hkey hnonce
    exact exec_of_effect (.initNoNonce hkey hnonce)

end Sys2Proof.Machine

/-! PROOFS, family 41_block_transform.md. The words a quarter-round leaves, the double-rounds as an iterate, the two
ways NEXTBLK generates a block, and what it reads and writes; with them the statements about the block and NEXTBLK. -/

namespace Sys2Proof.Machine

open Sys2Proof.Safety

/-! ### The quarter-round -/

/-- The four indices of a pattern. -/
def Pattern.indices (p : Pattern) : List (Fin 16) := [p.a, p.b, p.c, p.d]

/-- The pattern with its two pairs exchanged: steps 2 and 4 of the quarter-round are steps 1 and 3 on it. -/
def Pattern.swapPairs (p : Pattern) : Pattern := ⟨p.c, p.d, p.a, p.b⟩

/-- The exchange keeps the indices, so it keeps their distinctness. -/
theorem Pattern.swapPairs_indices_perm (p : Pattern) : p.swapPairs.indices.Perm p.indices :=
  List.perm_append_comm (l₁ := [p.c, p.d])

/-- `y` holds the four given words at the indices of the pattern, and the words of `x` everywhere else. -/
structure HoldsAt (x y : Scratch) (p : Pattern) (va vb vc vd : Word) : Prop where
  a : y[p.a] = va
  b : y[p.b] = vb
  c : y[p.c] = vc
  d : y[p.d] = vd
  other : ∀ i : Fin 16, i ∉ p.indices → y[i] = x[i]

theorem HoldsAt.swapPairs {x y : Scratch} {p : Pattern} {va vb vc vd : Word} (h : HoldsAt x y p va vb vc vd) :
    HoldsAt x y p.swapPairs vc vd va vb :=
  ⟨h.c, h.d, h.a, h.b, fun i hi => h.other i (mt p.swapPairs_indices_perm.mem_iff.2 hi)⟩

/-- One step of the quarter-round: the word at `b` is added to that at `a`, and the word at `d` is XORed with the sum and
rotated (41_block_transform.md R82). -/
theorem HoldsAt.qrStep {x y : Scratch} {p : Pattern} {va vb vc vd : Word} (h : HoldsAt x y p va vb vc vd)
    (hp : p.indices.Nodup) {n : Nat} (hpos : 0 < n) (hlt : n < 32) :
    HoldsAt x (qrStep p.a p.b p.d n y) p (va + vb) vb vc ((vd ^^^ (va + vb)).rotateLeft n) := by
  obtain ⟨ha, hb, hc, hd, hother⟩ := h
  obtain ⟨⟨hab, hac, had⟩, ⟨-, hbd⟩, hcd⟩ :
      (p.a ≠ p.b ∧ p.a ≠ p.c ∧ p.a ≠ p.d) ∧ (p.b ≠ p.c ∧ p.b ≠ p.d) ∧ p.c ≠ p.d := by
    simpa [Pattern.indices] using hp
  have hword := qrStep_getElem p.a p.b p.d n y had
  refine ⟨?a, ?b, ?c, ?d, fun i hi => ?other⟩
  case a => rw [hword, if_neg had, if_pos rfl, ha, hb]
  case b => rw [hword, if_neg hbd, if_neg hab.symm, hb]
  case c => rw [hword, if_neg hcd, if_neg hac.symm, hc]
  case d => rw [hword, if_pos rfl, ha, hb, hd, rotl32_eq_rotateLeft _ hpos hlt]
  case other =>
    obtain ⟨hia, -, -, hid⟩ : i ≠ p.a ∧ i ≠ p.b ∧ i ≠ p.c ∧ i ≠ p.d := by simpa [Pattern.indices] using hi
    rw [hword, if_neg hid, if_neg hia, hother i hi]

/-- Settles O29: the four words are followed through the four steps, with the pairs exchanged from each to the next. -/
theorem quarterRoundSteps : Obligations.QuarterRoundSteps := by
  intro x a b c d a1 a2 b1 b2 c1 c2 d1 d2 hp ha1 hd1 hc1 hb1 ha2 hd2 hc2 hb2
  subst ha1 hd1 hc1 hb1 ha2 hd2 hc2 hb2
  have hp' : (Pattern.swapPairs ⟨a, b, c, d⟩).indices.Nodup := (Pattern.swapPairs_indices_perm _).nodup_iff.2 hp
  have start : HoldsAt x x ⟨a, b, c, d⟩ x[a] x[b] x[c] x[d] := ⟨rfl, rfl, rfl, rfl, fun _ _ => rfl⟩
  have first := (start.qrStep hp (n := 16) (by decide) (by decide)).swapPairs
  have second := (first.qrStep hp' (n := 12) (by decide) (by decide)).swapPairs
  have third := (second.qrStep hp (n := 8) (by decide) (by decide)).swapPairs
  have fourth : HoldsAt x (quarterRound x ⟨a, b, c, d⟩) ⟨a, b, c, d⟩ _ _ _ _ :=
    (third.qrStep hp' (n := 7) (by decide) (by decide)).swapPairs
  exact ⟨fourth.a, fourth.b, fourth.c, fourth.d, fourth.other⟩

/-! ### The block -/

/-- A double-round is the eight quarter-rounds in order, column patterns before diagonal patterns
(41_block_transform.md R86). -/
theorem doubleRound_eq_foldl (x : Scratch) : doubleRound x = (columnPatterns ++ diagonalPatterns).foldl quarterRound x :=
  List.foldl_append.symm

theorem doubleRounds_eq_iterate (n : Nat) (x : Scratch) : doubleRounds n x = doubleRound^[n] x := by
  induction n generalizing x with
  | zero => rfl
  | succ n ih => exact ih (doubleRound x)

/-- Settles O31: the double-rounds of the block are an iterate, and each is one fold over the eight patterns. -/
theorem blockIsTenDoubleRoundsPlusInput : Obligations.BlockIsTenDoubleRoundsPlusInput := by
  intro ws i
  have hround : doubleRound = fun x => (columnPatterns ++ diagonalPatterns).foldl quarterRound x :=
    funext doubleRound_eq_foldl
  calc (block ws)[i]
      = (doubleRounds 10 ws)[i] + ws[i] := block_getElem ws i.isLt
    _ = (doubleRound^[10] ws)[i] + ws[i] := by rw [doubleRounds_eq_iterate]
    _ = _ := by rw [hround]; rfl

/-! ### NEXTBLK -/

/-- NEXTBLK inside the counter space (41_block_transform.md R92). -/
theorem exec_nextblk_advance {s : State} (h : readyForBlock s) (hmore : s.blkcnt ≠ 0xFFFFFFFFFFFFFFFF#64) :
    exec .nextblk s = .next ((s.writeBlock (block s.ws)).advance.setErr .ok) := by
  obtain ⟨hvalid, hexh⟩ := h
  exact exec_of_effect (.nextblkDone hvalid (.advance hexh hmore))

/-- NEXTBLK at the end of the counter space (41_block_transform.md R93). -/
theorem exec_nextblk_exhaust {s : State} (h : readyForBlock s) (hlast : s.blkcnt = 0xFFFFFFFFFFFFFFFF#64) :
    exec .nextblk s = .next ((s.writeBlock (block s.ws)).exhaust.setErr .ok) := by
  obtain ⟨hvalid, hexh⟩ := h
  exact exec_of_effect (.nextblkDone hvalid (.exhaust hexh hlast))

/-- Below 2^64 - 1 the counter advances without wrapping. -/
theorem toNat_succ_of_ne_last {c : Word64} (h : c ≠ 0xFFFFFFFFFFFFFFFF#64) : (c + 1#64).toNat = c.toNat + 1 := by
  bv_omega

/-- Settles O33: the words 12 and 13 are those of `advanceWords`, and the counter does not wrap. -/
theorem nextblkAdvancesCounter : Obligations.NextblkAdvancesCounter := by
  intro s hready hmore
  refine ⟨_, exec_nextblk_advance hready hmore, rfl, toNat_succ_of_ne_last hmore, advanceWords_twelve s.ws,
    advanceWords_thirteen s.ws, fun i h12 h13 => advanceWords_other s.ws i.isLt ?_ ?_⟩
  · exact fun h => h12 (Fin.ext h)
  · exact fun h => h13 (Fin.ext h)

/-- Settles O34: NEXTBLK and XOR take the exhausting way of `Generation`; the refusals are those of O52. -/
theorem lastBlockSetsExhausted : Obligations.LastBlockSetsExhausted := by
  obtain ⟨-, hrefused, -⟩ := exhaustedFlagIsSticky
  refine ⟨fun s hready hlast => ⟨exec_nextblk_exhaust hready hlast, fun d hc => ?_⟩, hrefused⟩
  obtain ⟨hvalid, hexh⟩ := hready
  exact exec_of_effect (.xorNewBlock d hvalid hc (.exhaust hexh hlast))

/-- Block generation neither reads nor writes `CURSOR` and `DOUT`. -/
theorem Generation.withOutput {s t : State} (h : Generation s t) (c : Fin 65) (d : Byte) :
    Generation { s with cursor := c, dout := d } { t with cursor := c, dout := d } := by
  cases h with
  | advance hexh hmore => exact .advance hexh hmore
  | exhaust hexh hlast => exact .exhaust hexh hlast

/-- NEXTBLK commutes with any change of `CURSOR` and `DOUT` (41_block_transform.md R96). -/
theorem exec_nextblk_withOutput {s t : State} (h : exec .nextblk s = .next t) (c : Fin 65) (d : Byte) :
    exec .nextblk { s with cursor := c, dout := d } = .next { t with cursor := c, dout := d } := by
  apply exec_of_effect
  cases exec_iff.1 h with
  | nextblkInvalid hvalid => exact .nextblkInvalid (s := { s with cursor := c, dout := d }) hvalid
  | nextblkExhausted hvalid hexh => exact .nextblkExhausted (s := { s with cursor := c, dout := d }) hvalid hexh
  | nextblkDone hvalid hg => exact .nextblkDone (s := { s with cursor := c, dout := d }) hvalid (hg.withOutput c d)

/-- In each of its ways NEXTBLK writes only `KS`, `WS`, `BLKCNT`, `EXH` and `ERR`. -/
theorem exec_nextblk_frame {s t : State} (h : exec .nextblk s = .next t) :
    t = { s with ks := t.ks, ws := t.ws, blkcnt := t.blkcnt, exh := t.exh, err := t.err } := by
  cases exec_iff.1 h with
  | nextblkInvalid => rfl
  | nextblkExhausted => rfl
  | nextblkDone _ hg => cases hg <;> rfl

/-- Settles O36: the frame of NEXTBLK holds neither `CURSOR` nor `DOUT`, and a change of them passes through. -/
theorem nextblkIgnoresCursorAndDout : Obligations.NextblkIgnoresCursorAndDout := by
  intro s c d
  obtain ⟨t, ht⟩ := exec_next .nextblk s
  have hframe := exec_nextblk_frame ht
  have hcursor : t.cursor = s.cursor := by rw [hframe]
  have hdout : t.dout = s.dout := by rw [hframe]
  exact ⟨t, ht, hcursor, hdout, hframe, exec_nextblk_withOutput ht c d⟩

/-- Settles O37: a block generation exhausts or advances, by `BLKCNT` alone; the carry out of word 12 wraps word 13. -/
theorem wordThirteenWrapsSilently : Obligations.WordThirteenWrapsSilently := by
  intro s hready
  by_cases hlast : s.blkcnt = 0xFFFFFFFFFFFFFFFF#64
  case pos =>
    exact ⟨_, exec_nextblk_exhaust hready hlast, rfl, iff_of_true rfl hlast, fun hmore => absurd hlast hmore⟩
  case neg =>
    have hexh : s.exh = false := hready.2
    refine ⟨_, exec_nextblk_advance hready hlast, rfl, iff_of_false (by simp [hexh]) hlast, fun _ h12 h13 => ⟨?_, ?_⟩⟩
    · calc (advanceWords s.ws)[12]
          = s.ws[12] + 1#32 := advanceWords_twelve s.ws
        _ = 0#32 := by rw [h12]; rfl
    · calc (advanceWords s.ws)[13]
          = if s.ws[12] + 1#32 = 0#32 then s.ws[13] + 1#32 else s.ws[13] := advanceWords_thirteen s.ws
        _ = 0#32 := by rw [h12, h13]; rfl

/-- Settles O35: the two refusals of `Effect`; in every other state a block is generated. -/
theorem nextblkErrorConditions : Obligations.NextblkErrorConditions := by
  intro s
  refine ⟨fun hvalid => exec_of_effect (.nextblkInvalid hvalid),
    fun hvalid hexh => exec_of_effect (.nextblkExhausted hvalid hexh), fun hready => ?_⟩
  obtain ⟨t, ht, hok, -⟩ := wordThirteenWrapsSilently s hready
  exact ⟨t, ht, hok⟩

end Sys2Proof.Machine

/-! PROOFS, family 42_stream_xor.md. The block that a generation leaves in `KS`, and an XOR in each of its two successful
ways: with a new block, and inside the block that stands. -/

namespace Sys2Proof.Machine

open Sys2Proof.Safety

/-- A block can always be generated while the counter space is not used up. -/
theorem exists_generation {s : State} (hexh : s.exh = false) : ∃ u, Generation s u := by
  by_cases hlast : s.blkcnt = 0xFFFFFFFFFFFFFFFF#64
  · exact ⟨_, .exhaust hexh hlast⟩
  · exact ⟨_, .advance hexh hlast⟩

/-- A generation leaves the block of the working state as it stood before (41_block_transform.md R90). -/
theorem Generation.ks {s u : State} (hg : Generation s u) : u.ks = block s.ws := by
  cases hg <;> rfl

/-- Byte 0 of a keystream block is the low byte of its word 0 (42_stream_xor.md R103). -/
theorem ksByte_zero (ks : Vector Word 16) : ksByte ks 0 = ks[0].extractLsb' 0 8 := rfl

/-- The XOR that starts a new block combines its byte with byte 0 of that block. -/
theorem Generation.consume_zero {s u : State} (hg : Generation s u) (d : Byte) :
    u.consume d 0 = { u with dout := d ^^^ (block s.ws)[0].extractLsb' 0 8, cursor := 1 } := by
  rw [State.consume, ksByte_zero, hg.ks]
  rfl

/-- Inside a block XOR consumes the byte at `CURSOR`, `EXH` set or not (42_stream_xor.md R102, R105). -/
theorem exec_xor_inBlock {s : State} (d : Byte) (hvalid : s.valid = true) (hc : s.cursor.val < 64) :
    exec (.xor d) s = .next ((s.consume d ⟨s.cursor.val, hc⟩).setErr .ok) :=
  exec_of_effect (.xorInBlock d hvalid ⟨s.cursor.val, hc⟩ rfl)

/-- Settles O41: with `CURSOR` = 64 NEXTBLK and XOR share one `Generation`, after which XOR consumes byte 0; below 64 XOR
only consumes. -/
theorem xorRegeneratesLazily : Obligations.XorRegeneratesLazily := by
  constructor
  · intro s d ⟨hvalid, hexh⟩ hc
    obtain ⟨u, hg⟩ := exists_generation hexh
    refine ⟨u.setErr .ok, exec_of_effect (.nextblkDone hvalid hg), hg.ks, ?_⟩
    calc exec (.xor d) s
        = .next ((u.consume d 0).setErr .ok) := exec_of_effect (.xorNewBlock d hvalid hc hg)
      _ = _ := by rw [hg.consume_zero d]; rfl
  · intro s d hvalid hc
    exact ⟨_, exec_xor_inBlock d hvalid hc, rfl, rfl, rfl, rfl⟩

end Sys2Proof.Machine

/-! PROOFS, family 60_exceptions.md. The result each command reports, what a refused one leaves, and an access on a bus
of several instances as a map over them; then the statements about errors and about several instances. -/

namespace Sys2Proof.Machine

/-! ### What a refused command leaves -/

/-- A command that ends with an error only set `ERR` (60_exceptions.md R117). -/
theorem Effect.eq_setErr_of_refused {i : Instr} {s t : State} (h : Effect i s t) (herr : t.err ≠ .ok) :
    t = s.setErr t.err := by
  cases h with
  | initDone => exact absurd rfl herr
  | nextblkDone => exact absurd rfl herr
  | xorNewBlock => exact absurd rfl herr
  | xorInBlock => exact absurd rfl herr
  | _ => rfl

/-- Settles O51: a word that decodes ends in one of the refusals of `Effect`, and any other raises IllegalCommand. -/
theorem refusedCommandChangesOnlyErr : Obligations.RefusedCommandChangesOnlyErr := by
  intro s t w h herr
  cases hd : decode w with
  | ok i =>
    rw [writeCmd_of_ok hd] at h
    exact (exec_iff.1 h).eq_setErr_of_refused herr
  | error e =>
    rw [writeCmd_of_error hd] at h
    cases h
    rfl

/-! ### The result a command reports -/

/-- A block is only generated while the counter space is not used up (41_block_transform.md R94). -/
theorem Generation.exh_eq_false {s u : State} (hg : Generation s u) : s.exh = false := by
  cases hg <;> assumption

/-- The answer to the write plays no part in the command it holds. -/
theorem writeCmd_respond {w : Word} {s t : State} (h : writeCmd w s = .next t) (r : BusResponse) :
    writeCmd w (s.respond r) = .next (t.respond r) := by
  cases hd : decode w with
  | ok i =>
    rw [writeCmd_of_ok hd] at h ⊢
    have hs := exec_sameOutside h
    rw [State.respond, State.respond, hs.window, hs.inReset, hs.pending]
    exact exec_outside h s.window s.inReset s.pending (some r)
  | error e =>
    rw [writeCmd_of_error hd] at h ⊢
    cases h
    rfl

/-- The result of INIT: the key is checked before the nonce (60_exceptions.md R119). -/
theorem exec_init_err {s t : State} (h : exec .init s = .next t) :
    t.err = if s.keymask ≠ 0xFF#8 then .invalidKeyLength
      else if s.noncemask ≠ 0x7#3 then .invalidNonceLength else .ok := by
  cases exec_iff.1 h with
  | initNoKey hkey => simp [hkey]
  | initNoNonce hkey hnonce => simp [hkey, hnonce]
  | initDone hkey hnonce => simp [hkey, hnonce]

/-- The result of NEXTBLK: `VALID` is checked before `EXH` (60_exceptions.md R119). -/
theorem exec_nextblk_err {s t : State} (h : exec .nextblk s = .next t) :
    t.err = if s.valid = false then .notInitialized else if s.exh = true then .counterExhausted else .ok := by
  cases exec_iff.1 h with
  | nextblkInvalid hvalid => simp [hvalid]
  | nextblkExhausted hvalid hexh => simp [hvalid, hexh]
  | nextblkDone hvalid hg => simp [hvalid, hg.exh_eq_false]

/-- The result of XOR: `EXH` matters only where a block would be generated (60_exceptions.md R119). -/
theorem exec_xor_err_of_state {d : Byte} {s t : State} (h : exec (.xor d) s = .next t) :
    t.err = if s.valid = false then .notInitialized
      else if s.cursor.val = 64 ∧ s.exh = true then .counterExhausted else .ok := by
  cases exec_iff.1 h with
  | xorInvalid _ hvalid => simp [hvalid]
  | xorExhausted _ hvalid hc hexh => simp [hvalid, hc, hexh]
  | xorNewBlock _ hvalid hc hg => simp [hvalid, hg.exh_eq_false]
  | xorInBlock _ hvalid p hp =>
    have hc : s.cursor.val ≠ 64 := by omega
    simp [hvalid, hc]

/-- The one word that is NEXTBLK (30_encoding.md R61). -/
theorem decode_eq_nextblk_iff {w : Word} : decode w = .ok .nextblk ↔ w = 0x00000002#32 :=
  (decode_eq_ok_iff.trans rowNextblk_accepts_iff.symm).trans (OpcodeRow.accepts_iff_eq rfl)

/-- Settles O50: the rows of the opcode map decide whether the word is illegal, and each command's own checks come in the
order of the rule. -/
theorem errorPriority : Obligations.ErrorPriority := by
  intro s w hz
  obtain ⟨hinit, hnextblk, hxor⟩ := decodeFollowsOpcodeMap w
  obtain ⟨t, ht⟩ := writeCmd_next w s
  refine ⟨t.respond .writeDone, (access_write_cmd hz w).trans (writeCmd_respond ht _), ?_⟩
  rw [State.respond_err]
  cases hd : decode w with
  | error e =>
    have hnone : ¬ (w &&& 0xFFFFFFFF#32 = 0x00000001#32 ∨ w &&& 0xFFFFFFFF#32 = 0x00000002#32 ∨
        w &&& 0xFFFF00FF#32 = 0x00000003#32) := by
      rintro (h | h | h)
      · cases hd.symm.trans (hinit.2 h)
      · cases hd.symm.trans (hnextblk.2 h)
      · cases hd.symm.trans ((hxor _).2 ⟨h, rfl⟩)
    rw [writeCmd_of_error hd] at ht
    cases ht
    rw [if_pos hnone]
    rfl
  | ok i =>
    rw [writeCmd_of_ok hd] at ht
    cases i with
    | init =>
      obtain rfl := decode_eq_init_iff.1 hd
      simp [exec_init_err ht]
    | nextblk =>
      obtain rfl := decode_eq_nextblk_iff.1 hd
      simp [exec_nextblk_err ht]
    | xor d =>
      have hrow : w &&& 0xFFFF00FF#32 = 0x00000003#32 := ((hxor d).1 hd).1
      have hnotInit : w ≠ 0x00000001#32 := fun h => by cases hd.symm.trans (decode_eq_init_iff.2 h)
      have hnotNextblk : w ≠ 0x00000002#32 := fun h => by cases hd.symm.trans (decode_eq_nextblk_iff.2 h)
      simp [exec_xor_err_of_state ht, hrow, hnotInit, hnotNextblk]

/-! ### Several instances -/

/-- An instance claims exactly the addresses of its own 256-byte window (20_memory.md R38). -/
theorem State.claims_iff {s : State} {a : BusAccess} : s.claims a = true ↔ s.window = a.addr / 256 := by
  rw [State.claims, decide_eq_true_iff, State.base, Config.windowBytes]
  omega

/-- What an instance on the bus becomes under an access: it performs the access if it claims it. -/
def State.afterBusAccess (a : BusAccess) (s : State) : State :=
  if s.claims a then (nextOf (access a s)).getD s else s

theorem State.afterBusAccess_of_not_claims {a : BusAccess} {s : State} (hc : s.claims a = false) :
    s.afterBusAccess a = s := by
  simp [State.afterBusAccess, hc]

theorem State.afterBusAccess_of_claims {a : BusAccess} {s t : State} (hc : s.claims a = true)
    (h : access a s = .next t) : s.afterBusAccess a = t := by
  simp [State.afterBusAccess, hc, h, nextOf]

/-- No instance moves its window. -/
@[simp] theorem State.afterBusAccess_window (a : BusAccess) (s : State) : (s.afterBusAccess a).window = s.window := by
  cases hc : s.claims a with
  | false => rw [s.afterBusAccess_of_not_claims hc]
  | true =>
    obtain ⟨t, ht⟩ := access_next a s
    rw [s.afterBusAccess_of_claims hc ht, (access_keeps ht).1]

/-- An access on the bus is made on each instance by itself, and always ends (60_exceptions.md R127). -/
theorem accessCores_eq_map (a : BusAccess) (ss : List State) :
    accessCores a ss = .next (ss.map (State.afterBusAccess a)) := by
  induction ss with
  | nil => rfl
  | cons s ss ih =>
    have hhead : (if s.claims a then access a s else .next s) = .next (s.afterBusAccess a) := by
      cases hc : s.claims a with
      | false => simp [s.afterBusAccess_of_not_claims hc]
      | true =>
        obtain ⟨t, ht⟩ := access_next a s
        simp [s.afterBusAccess_of_claims hc ht, ht]
    simp [accessCores, hhead, ih]

theorem System.access_eq_map (a : BusAccess) (y : System) :
    y.access a = .next ⟨y.cores.map (State.afterBusAccess a)⟩ := by
  simp [System.access, accessCores_eq_map]

theorem System.wf_iff {y : System} : y.wf = true ↔ (y.cores.map (·.window)).Nodup :=
  decide_eq_true_iff

/-- The windows do not move, so the instances stay told apart. -/
theorem System.wf_map_afterBusAccess {y : System} (hy : y.wf = true) (a : BusAccess) :
    (System.mk (y.cores.map (State.afterBusAccess a))).wf = true := by
  rw [System.wf_iff] at hy ⊢
  simpa [Function.comp_def] using hy

/-- Distinct windows do not overlap, so at most one instance claims an access. -/
theorem System.claims_unique {y : System} (hy : y.wf = true) {a : BusAccess} {j k : Nat} {s u : State}
    (hs : y.cores[j]? = some s) (hsc : s.claims a = true) (hu : y.cores[k]? = some u) (huc : u.claims a = true) :
    k = j := by
  have hk : k < (y.cores.map (·.window)).length := by
    simpa using (List.getElem?_eq_some_iff.1 hu).1
  apply (List.getElem?_inj hk (System.wf_iff.1 hy)).1
  simp [hs, hu, State.claims_iff.1 hsc, State.claims_iff.1 huc]

/-- The host is answered by the one instance that claims the access. -/
theorem System.response_of_claims {y : System} (hy : y.wf = true) {a : BusAccess} {j : Nat} {s : State}
    (hs : y.cores[j]? = some s) (hsc : s.claims a = true) : y.response a = s.response := by
  have hfind : y.cores.find? (·.claims a) = some s := by
    obtain ⟨hj, hget⟩ := List.getElem?_eq_some_iff.1 hs
    refine List.find?_eq_some_iff_getElem.2 ⟨hsc, j, hj, hget, fun k hk => ?_⟩
    rw [Bool.not_eq_true']
    by_contra huc
    have : k = j := claims_unique hy hs hsc (List.getElem?_eq_getElem (hk.trans hj)) (by simpa using huc)
    omega
  rw [System.response, hfind]

/-- Settles O60: an access maps over the instances, all but the one that claims it keep their state, and the windows stay
apart, so that one answers. -/
theorem instancesShareNothing : Obligations.InstancesShareNothing := by
  intro y a hy
  refine ⟨_, y.access_eq_map a, List.length_map .., fun j s hs hc => ?_, fun j s hs hc => ⟨?_, ?_⟩⟩
  · simp [hs, s.afterBusAccess_of_not_claims hc]
  · obtain ⟨t, ht⟩ := access_next a s
    have htc : t.claims a = true := by rw [State.claims_iff, (access_keeps ht).1, State.claims_iff.1 hc]
    have hz : (y.cores.map (State.afterBusAccess a))[j]? = some t := by
      simp [hs, s.afterBusAccess_of_claims hc ht]
    exact ⟨t, ht, hz, System.response_of_claims (System.wf_map_afterBusAccess hy a) hz htc⟩
  · exact fun k u hu huc => System.claims_unique hy hs hc hu huc

end Sys2Proof.Machine

/-! PROOFS, family 70_reset_and_hazards.md. What asserting the reset input leaves in every element of the state. -/

namespace Sys2Proof.Machine

/-! ### Reset -/

theorem takeInput_resetAssert (s : State) : takeInput .resetAssert s = .next s.assertReset :=
  rfl

/-- Settles O18: every element of the next state is that of `State.reset`, where each flag, counter and mask is a literal
and each array is the constant 0. -/
theorem resetSetsEveryElement : Obligations.ResetSetsEveryElement := by
  intro s
  have hzero {n : Nat} (i : Fin n) : (Vector.replicate n 0#32)[i] = 0#32 := Vector.getElem_replicate i.isLt
  refine ⟨s.assertReset, takeInput_resetAssert s, rfl, rfl, rfl, rfl, ?ws, ?key, ?nonce, ?ks, rfl, rfl, rfl,
    ?pkey, ?pnonce, rfl, rfl, rfl⟩
  case ws | key | nonce | ks | pkey | pnonce => exact hzero

end Sys2Proof.Machine

/-! PROOFS, decode and encode. A command is encoded as the word of its fields, so decoding and encoding are inverse, and
the legal words are the encodings of the 258 commands. -/

namespace Sys2Proof

theorem fieldsOf_encode (i : Instr) : fieldsOf (encode i) = i.fields := by
  have hrow : Laws.EncodesInItsRow.Statement i := by
    cases i with
    | init => exact Laws.EncodesInItsRow.init
    | nextblk => exact Laws.EncodesInItsRow.nextblk
    | xor d => exact Laws.EncodesInItsRow.xor d
  obtain ⟨-, -, hfields, -⟩ := hrow
  exact hfields

/-- The decoder answers a command exactly on the word of that command (30_encoding.md R62, R65). -/
theorem decode_eq_ok_iff_encode {w : Word} {i : Instr} : decode w = .ok i ↔ encode i = w := by
  rw [decode_eq_ok_iff, ← fieldsOf_encode, fieldsOf_inj, eq_comm]

@[simp] theorem decode_encode (i : Instr) : decode (encode i) = .ok i :=
  decode_eq_ok_iff_encode.2 rfl

theorem Instr.wf_eq_true (i : Instr) : i.wf = true :=
  CommandFields.wf_iff.2 ⟨i, rfl⟩

/-- Settles O2: decoding is matching the fields of the word, which determine it. -/
theorem decodeEncodeAgree : Obligations.DecodeEncodeAgree :=
  ⟨fun i _ => decode_encode i, fun _ i hd => ⟨i.wf_eq_true, decode_eq_ok_iff_encode.1 hd⟩⟩

/-- Settles O1: the accepted words are read off their fields, and no row accepts the two illegal ones. -/
theorem decodeSampleWords : Obligations.DecodeSampleWords := by
  refine ⟨decode_encode (.xor 0x4C#8), rfl, decode_encode (.xor 0x00#8), rfl, decode_encode (.xor 0xFF#8), rfl,
    decode_encode (.xor 0x01#8), decode_encode .init, decode_encode .nextblk, ?_, ?_⟩
  · exact exists_decode_eq_error_iff.2 (by decide)
  · exact exists_decode_eq_error_iff.2 (by decide)

/-! ### The number of commands -/

theorem encode_injective : Function.Injective encode := by
  intro i j h
  have hd : decode (encode i) = .ok j := decode_eq_ok_iff_encode.2 h.symm
  simpa using hd

/-- The 258 commands, in the order in which 30_encoding.md R64 counts them. -/
def allCommands : List Instr :=
  .init :: .nextblk :: (List.range 256).map fun d => .xor (BitVec.ofNat 8 d)

theorem mem_allCommands (i : Instr) : i ∈ allCommands := by
  cases i with
  | init => simp [allCommands]
  | nextblk => simp [allCommands]
  | xor d =>
    have hd : d.toNat < 256 ∧ BitVec.ofNat 8 d.toNat = d := ⟨d.isLt, by simp⟩
    simpa [allCommands] using ⟨d.toNat, hd⟩

theorem allCommands_nodup : allCommands.Nodup := by
  have hxor : ((List.range 256).map fun d => Instr.xor (BitVec.ofNat 8 d)).Nodup := by
    refine List.nodup_range.map_on fun c hc d hd h => ?_
    have hmod : c % 2 ^ 8 = d % 2 ^ 8 := by simpa using congrArg BitVec.toNat (Instr.xor.inj h)
    simp only [List.mem_range] at hc hd
    omega
  simpa [allCommands] using hxor

/-- The word of `XOR d` holds 3 in its low byte and `d` in the next one. -/
theorem encode_xor_ofNat {d : Nat} (hd : d < 256) :
    encode (.xor (BitVec.ofNat 8 d)) = BitVec.ofNat 32 (0x03 + 0x100 * d) := by
  have hor : 2 ^ 8 * d + 3 = 2 ^ 8 * d ||| 3 := Nat.two_pow_add_eq_or_of_lt (by decide) d
  have hshift : (d % 2 ^ 8 % 2 ^ 32) <<< 8 % 2 ^ 32 = 2 ^ 8 * d := by
    rw [Nat.shiftLeft_eq]
    omega
  apply BitVec.eq_of_toNat_eq
  simp only [encode, BitVec.toNat_or, BitVec.toNat_shiftLeft, BitVec.toNat_setWidth, BitVec.toNat_ofNat]
  rw [hshift, Nat.or_comm, Nat.mod_eq_of_lt (by decide : 3 < 2 ^ 32), ← hor]
  omega

theorem allCommands_map_encode :
    allCommands.map encode =
      0x00000001#32 :: 0x00000002#32 :: (List.range 256).map fun d => BitVec.ofNat 32 (0x03 + 0x100 * d) := by
  have hxors : ((List.range 256).map fun d => Instr.xor (BitVec.ofNat 8 d)).map encode =
      (List.range 256).map fun d => BitVec.ofNat 32 (0x03 + 0x100 * d) := by
    rw [List.map_map]
    exact List.map_congr_left fun d hd => encode_xor_ofNat (List.mem_range.1 hd)
  rw [← hxors]
  rfl

/-- Settles O5: the legal words are the encodings of the commands, and encoding is injective. -/
theorem legalWordsAre258 : Obligations.LegalWordsAre258 := by
  refine ⟨_, rfl, ?_, ?_, fun w => ?_⟩
  · rw [← allCommands_map_encode]
    exact allCommands_nodup.map encode_injective
  · simp
  · rw [← allCommands_map_encode, List.mem_map]
    exact exists_congr fun i => by rw [decode_eq_ok_iff_encode, and_iff_right (mem_allCommands i)]

end Sys2Proof

/-! PROOFS, steps and accesses. What one step takes, what an access leaves alone, and the accesses made while the reset
input is asserted; then the statements about them. -/

namespace Sys2Proof.Machine

open Sys2Proof.Safety

/-! ### Steps -/

/-- Settles O9: an access is always answered and keeps the window and the inputs to come, and so does a change of the
reset input. -/
theorem everyStepAnswersNextState : Obligations.EveryStepAnswersNextState := by
  intro s
  cases hp : s.pending with
  | nil => exact ⟨s, by rw [step, serveNext, hp], hp, rfl⟩
  | cons e rest =>
    rw [step_of_pending hp]
    cases e with
    | access a =>
      obtain ⟨t, ht⟩ := access_next a (s.withPending rest)
      obtain ⟨hwindow, -, hpending⟩ := access_keeps ht
      exact ⟨t, ht, hpending, hwindow⟩
    | resetAssert => exact ⟨_, rfl, rfl, rfl⟩
    | resetRelease => exact ⟨_, rfl, rfl, rfl⟩

/-- Settles O8: a step serves the first input, and there is none. -/
theorem idleStepHoldsState : Obligations.IdleStepHoldsState := by
  intro s hp
  rw [step, serveNext, hp]

/-- Settles O6: the step performs the write of CMD, which runs the decoded command. -/
theorem stepRunsDecodedCommand : Obligations.StepRunsDecodedCommand := by
  intro s rest w i hz hp hd
  calc step s
      = access (.write (s.base + 0x034) (.b32 w)) (s.withPending rest) := step_of_pending hp
    _ = writeCmd w ((s.withPending rest).respond .writeDone) := access_write_cmd (s := s.withPending rest) hz w
    _ = exec i ((s.withPending rest).respond .writeDone) := writeCmd_of_ok hd _

/-! ### An access does not look at the inputs to come -/

theorem readReg_withPending (r : Reg) (s : State) (p : List Input) : readReg r (s.withPending p) = readReg r s := by
  cases r <;> rfl

theorem exec_withPending {i : Instr} {s t : State} (h : exec i s = .next t) (p : List Input) :
    exec i (s.withPending p) = .next (t.withPending p) := by
  have hs := exec_sameOutside h
  rw [State.withPending, State.withPending, hs.window, hs.inReset, hs.response]
  exact exec_outside h s.window s.inReset p s.response

theorem writeReg_withPending {r : Reg} {v : Word} {s t : State} (h : writeReg r v s = .next t) (p : List Input) :
    writeReg r v (s.withPending p) = .next (t.withPending p) := by
  cases r with
  | cmd =>
    rw [writeReg] at h ⊢
    cases hd : decode v with
    | ok i =>
      rw [writeCmd_of_ok hd] at h ⊢
      exact exec_withPending h p
    | error e =>
      rw [writeCmd_of_error hd] at h ⊢
      cases h
      rfl
  | _ =>
    cases h
    rfl

theorem writeOffset_withPending {off : Nat} {v : Word} {s t : State} (h : writeOffset off v s = .next t)
    (p : List Input) : writeOffset off v (s.withPending p) = .next (t.withPending p) := by
  unfold writeOffset at h ⊢
  cases hr : regAt off with
  | none =>
    rw [hr] at h
    cases h
    rfl
  | some r =>
    rw [hr] at h
    exact writeReg_withPending h p

theorem read32_withPending {off : Nat} {s t : State} (h : read32 off s = .next t) (p : List Input) :
    read32 off (s.withPending p) = .next (t.withPending p) := by
  have hvalue : readOffset off (s.withPending p) = readOffset off s := by
    unfold readOffset
    cases regAt off with
    | none => rfl
    | some r => exact readReg_withPending r s p
  cases h
  rw [read32, hvalue]
  rfl

theorem write32_withPending {off : Nat} {v : Word} {s t : State} (h : write32 off v s = .next t) (p : List Input) :
    write32 off v (s.withPending p) = .next (t.withPending p) := by
  rw [write32] at h ⊢
  rw [State.withPending_inReset]
  split_ifs at h ⊢
  · cases h
    rfl
  · exact writeOffset_withPending h p

theorem access_withPending {a : BusAccess} {s t : State} (h : access a s = .next t) (p : List Input) :
    access a (s.withPending p) = .next (t.withPending p) := by
  have hoff (addr : Nat) : offsetOf (s.withPending p) addr = offsetOf s addr := rfl
  have herr (h : busError s = .next t) : busError (s.withPending p) = .next (t.withPending p) := by
    cases h
    rfl
  cases a with
  | read addr w =>
    cases w with
    | w32 =>
      simp only [access, hoff] at h ⊢
      cases ho : offsetOf s addr with
      | none => exact herr (by rwa [ho] at h)
      | some off => exact read32_withPending (by rwa [ho] at h) p
    | _ => exact herr h
  | write addr d =>
    cases d with
    | b32 v =>
      simp only [access, hoff] at h ⊢
      cases ho : offsetOf s addr with
      | none => exact herr (by rwa [ho] at h)
      | some off => exact write32_withPending (by rwa [ho] at h) p
    | _ => exact herr h

/-- A run is one step and the run from the state it answers. -/
theorem run_succ_of_step {M : Host.Core} {s t : M.State} (h : M.step s = .next t) (n : Nat) :
    M.run (n + 1) s = M.run n t := by
  rw [Host.Core.run, h]

/-- Settles O10: each step takes the first access, which leaves the others pending. -/
theorem accessesTakeEffectInIssueOrder : Obligations.AccessesTakeEffectInIssueOrder := by
  intro as rest
  induction as with
  | nil =>
    intro s hp
    obtain rfl : s.pending = rest := hp
    rfl
  | cons a as ih =>
    intro s hp
    obtain ⟨t, ht⟩ := access_next a s
    have hstep : step s = .next (t.withPending (as.map .access ++ rest)) :=
      (step_of_pending hp).trans (access_withPending ht _)
    have hrun : Host.Core.run Sys2Proof.core (as.length + 1) s = _ :=
      run_succ_of_step (M := Sys2Proof.core) hstep as.length
    have haccesses : accesses (a :: as) (s.withPending rest) = accesses as (t.withPending rest) :=
      accesses_cons_of_access (access_withPending ht rest) as
    exact hrun.trans ((ih _ rfl).trans haccesses.symm)

/-! ### What a read tells -/

/-- No register shows the key, its staging, or a word of `WS` other than 12 and 13 (20_memory.md R41, 10_state.md
R20). -/
theorem readOffset_of_keyMaterial {s : State} {w : Vector Word 16} (h12 : w[12] = s.ws[12]) (h13 : w[13] = s.ws[13])
    (pk k : Vector Word 8) (off : Nat) :
    readOffset off { s with pkey := pk, key := k, ws := w } = readOffset off s := by
  unfold readOffset
  cases regAt off with
  | none => rfl
  | some r =>
    cases r with
    | ws12 => exact h12
    | ws13 => exact h13
    | _ => rfl

/-- Settles O16: only a 32-bit read in the window answers data, and the registers show no key material. -/
theorem keyMaterialCannotBeReadBack : Obligations.KeyMaterialCannotBeReadBack := by
  intro s pk k w addr width h12 h13
  cases width with
  | w32 =>
    have hoff : offsetOf { s with pkey := pk, key := k, ws := w } addr = offsetOf s addr := rfl
    simp only [access, hoff]
    cases offsetOf s addr with
    | none => exact ⟨_, _, rfl, rfl, rfl⟩
    | some off =>
      refine ⟨_, _, rfl, rfl, ?_⟩
      rw [readOffset_of_keyMaterial h12 h13]
      rfl
  | _ => exact ⟨_, _, rfl, rfl, rfl⟩

/-- Settles O21: the two registers of `State.reset` hold these values. -/
theorem readsAfterReset : Obligations.ReadsAfterReset :=
  ⟨access_read_reg State.reset .status rfl, access_read_reg State.reset .cursor rfl⟩

/-! ### Accesses that are no write of CMD -/

theorem access_keeps_counters {a : BusAccess} {s t : State} (h : access a s = .next t)
    (hcmd : ∀ v, a ≠ .write (s.base + Reg.cmd.offset) (.b32 v)) : t.blkcnt = s.blkcnt ∧ t.sctr = s.sctr := by
  cases access_effect h with
  | command w i _ ha => exact absurd ha (hcmd w)
  | _ => exact ⟨rfl, rfl⟩

theorem accesses_keep_counters {as : List BusAccess} {s t : State} (h : accesses as s = .next t)
    (hcmd : ∀ v, .write (s.base + Reg.cmd.offset) (.b32 v) ∉ as) :
    t.blkcnt = s.blkcnt ∧ t.sctr = s.sctr ∧ t.inReset = s.inReset := by
  induction as generalizing s with
  | nil =>
    cases h
    exact ⟨rfl, rfl, rfl⟩
  | cons a as ih =>
    obtain ⟨u, hu, hrest⟩ := andThen_eq_next h
    have hhead (v : Word) : a ≠ .write (s.base + Reg.cmd.offset) (.b32 v) :=
      fun ha => hcmd v (ha ▸ List.mem_cons_self)
    have htail (v : Word) : .write (u.base + Reg.cmd.offset) (.b32 v) ∉ as := by
      rw [access_base hu]
      exact fun hmem => hcmd v (List.mem_cons_of_mem a hmem)
    obtain ⟨hblkcnt, hsctr⟩ := access_keeps_counters hu hhead
    obtain ⟨-, hreset, -⟩ := access_keeps hu
    obtain ⟨hblkcnt', hsctr', hreset'⟩ := ih hrest htail
    exact ⟨hblkcnt'.trans hblkcnt, hsctr'.trans hsctr, hreset'.trans hreset⟩

/-- Settles O17: the accesses between the reads keep both counters, and a counter is its two halves. -/
theorem counterHalvesReadConsistently : Obligations.CounterHalvesReadConsistently := by
  intro s as hz hcmd
  obtain ⟨t, ht⟩ := accesses_next as s
  obtain ⟨hblkcnt, hsctr, hreset⟩ := accesses_keep_counters ht hcmd
  have hz' : t.inReset = false := hreset.trans hz
  refine ⟨t, lo32 s.blkcnt, hi32 t.blkcnt, lo32 s.sctr, hi32 t.sctr, ht, access_read_reg s .blkcntLo hz,
    access_read_reg t .blkcntHi hz', ?_, access_read_reg s .sctrLo hz, access_read_reg t .sctrHi hz', ?_⟩
  · rw [hblkcnt]
    exact join64_hi32_lo32 s.blkcnt
  · rw [hsctr]
    exact join64_hi32_lo32 s.sctr

/-- Settles O55: up to CTRW_HI the map has only staging registers, and a write of each is that of O14. -/
theorem stagingWritesDoNotReachCipherState : Obligations.StagingWritesDoNotReachCipherState := by
  intro s off v hz hle h4
  obtain ⟨hkeyw, hnoncew, hctrwLo, hctrwHi, -⟩ := writesFollowRegisterMap s v hz
  obtain ⟨i, rfl⟩ | ⟨j, rfl⟩ | rfl | rfl :
      (∃ i : Fin 8, off = 0x000 + 4 * i.val) ∨ (∃ j : Fin 3, off = 0x020 + 4 * j.val) ∨ off = 0x02C ∨ off = 0x030 := by
    by_cases hkey : off < 0x020
    · exact .inl ⟨⟨off / 4, by omega⟩, by simp only; omega⟩
    · by_cases hnonce : off < 0x02C
      · exact .inr (.inl ⟨⟨(off - 0x020) / 4, by omega⟩, by simp only; omega⟩)
      · omega
  · exact ⟨_, hkeyw i, rfl⟩
  · exact ⟨_, hnoncew j, rfl⟩
  · exact ⟨_, hctrwLo, rfl⟩
  · exact ⟨_, hctrwHi, rfl⟩

/-! ### What a step leaves alone -/

/-- Settles O54: such a step continues the cipher state, and its counter stands, advances, or is used up. -/
theorem onlyInitAndAdvanceWriteWs : Obligations.OnlyInitAndAdvanceWriteWs := by
  intro s t h hinit hreset
  have hcont : Continues s t := ((step_init_reset_or_continues h).resolve_left hinit).resolve_left hreset
  cases hcont.counter with
  | kept _ _ hws | exhausted _ _ _ _ _ hws => exact ⟨fun i _ _ => by rw [hws], fun _ => hws⟩
  | advanced _ hmore _ _ hblkcnt hws =>
    constructor
    · intro i h12 h13
      rw [hws]
      exact advanceWords_other s.ws i.isLt (fun h => h12 (Fin.ext h)) (fun h => h13 (Fin.ext h))
    · intro hsame
      have hsucc := toNat_succ_of_ne_last hmore
      rw [← hblkcnt, hsame] at hsucc
      omega

/-- Setting one bit of a mask clears none. -/
theorem getLsbD_or_of_left {n : Nat} {m : BitVec n} (b : BitVec n) {k : Nat} (h : m.getLsbD k = true) :
    (m ||| b).getLsbD k = true := by
  rw [BitVec.getLsbD_or, h, Bool.true_or]

/-- `t` has every mask bit that `s` has. -/
structure KeepsMasks (s t : State) : Prop where
  key : ∀ i : Fin 8, s.keymask.getLsbD i.val = true → t.keymask.getLsbD i.val = true
  nonce : ∀ j : Fin 3, s.noncemask.getLsbD j.val = true → t.noncemask.getLsbD j.val = true

theorem AccessEffect.keepsMasks {a : BusAccess} {s t : State} (h : AccessEffect a s t) : KeepsMasks s t := by
  cases h with
  | stageKey i v => exact ⟨fun _ => getLsbD_or_of_left _, fun _ => id⟩
  | stageNonce j v => exact ⟨fun _ => id, fun _ => getLsbD_or_of_left _⟩
  | command w i _ _ _ he =>
    have hs := exec_sameOutside he
    exact ⟨fun _ hk => by rwa [hs.keymask], fun _ hk => by rwa [hs.noncemask]⟩
  | _ => exact ⟨fun _ => id, fun _ => id⟩

/-- Settles O56: the commands' frame holds the staging registers, and of the inputs only reset clears a mask bit. -/
theorem stagingSurvivesCommands : Obligations.StagingSurvivesCommands := by
  constructor
  · intro i s
    obtain ⟨t, ht⟩ := exec_next i s
    obtain ⟨hpkey, hkeymask, hpnonce, hnoncemask, hpctr, hwindow, hreset, hpending, hresponse⟩ := exec_sameOutside ht
    exact ⟨t, ht, hpkey, hkeymask, hpnonce, hnoncemask, hpctr, hwindow, hreset, hpending, hresponse⟩
  · intro s t h hreset
    have hmasks : KeepsMasks s t := by
      obtain ⟨-, rfl⟩ | ⟨a, rest, -, ha⟩ | ⟨rest, hp, -⟩ | ⟨rest, -, rfl⟩ := step_cases h
      · exact ⟨fun _ => id, fun _ => id⟩
      · obtain ⟨hkey, hnonce⟩ := ha.keepsMasks
        exact ⟨hkey, hnonce⟩
      · exact absurd ⟨rest, hp⟩ hreset
      · exact ⟨fun _ => id, fun _ => id⟩
    exact ⟨hmasks.key, hmasks.nonce⟩

/-! ### Reset -/

/-- Settles O12: such an access is of another width or names no offset of the window. -/
theorem busErrorWhileResetAsserted : Obligations.BusErrorWhileResetAsserted := by
  intro s a _ hwrite hread
  cases a with
  | read addr w =>
    cases w with
    | w32 =>
      have hillegal := (hread addr).resolve_left fun hne => hne rfl
      exact read_answersBusError (offsetOf_eq_none_of_illegal fun ⟨off, hle, h4, haddr⟩ => hillegal off hle h4 haddr)
    | _ => rfl
  | write addr d =>
    cases d with
    | b32 v =>
      have hillegal := (hwrite addr v).resolve_left fun hne => hne rfl
      exact write_answersBusError
        (offsetOf_eq_none_of_illegal fun ⟨off, hle, h4, haddr⟩ => hillegal off hle h4 haddr) v
    | _ => rfl

/-- Settles O19: reset keeps only the model's own fields of the state, and no command writes those. -/
theorem resetHidesCommandUnderWay : Obligations.ResetHidesCommandUnderWay := by
  intro i s
  obtain ⟨t, ht⟩ := exec_next i s
  have hs := exec_sameOutside ht
  have hreset : t.assertReset = s.assertReset := by
    rw [State.assertReset, hs.window, hs.pending, hs.response]
    rfl
  exact ⟨t, s.assertReset, ht, congrArg Host.Outcome.next hreset, rfl⟩

/-- While the reset input is asserted an access does nothing but get its answer (70_reset_and_hazards.md R133). -/
theorem access_of_inReset {a : BusAccess} {s t : State} (hz : s.inReset = true) (h : access a s = .next t) :
    ∃ r, t = s.respond r := by
  cases access_effect h with
  | answered r => exact ⟨r, rfl⟩
  | stageKey _ _ hz' | stageNonce _ _ hz' | stageCtrLo _ hz' | stageCtrHi _ hz' | command _ _ hz' | illegal _ _ hz' =>
    exact absurd (hz'.symm.trans hz) Bool.false_ne_true

theorem accesses_of_inReset {as : List BusAccess} {s t : State} (hz : s.inReset = true)
    (h : accesses as s = .next t) : t = { s with response := t.response } := by
  induction as generalizing s with
  | nil =>
    cases h
    rfl
  | cons a as ih =>
    obtain ⟨u, hu, hrest⟩ := andThen_eq_next h
    obtain ⟨r, rfl⟩ := access_of_inReset hz hu
    exact ih (s := s.respond r) hz hrest

/-- Settles O20: an access while reset is asserted is only answered, so the state at the release is that of the
assertion. -/
theorem accessesWhileResetAsserted : Obligations.AccessesWhileResetAsserted := by
  constructor
  · intro s off hz hle h4
    have hlt : off < 256 := by omega
    refine ⟨?_, fun v => ?_⟩
    · rw [readsAs, access_read_offset s hlt h4, read32, if_pos hz]
      rfl
    · rw [writeLeadsTo, access_write_offset s v hlt h4, write32, if_pos hz]
      rfl
  · intro s as
    obtain ⟨b, hb⟩ := accesses_next as s.assertReset
    refine ⟨_, b, _, rfl, hb, rfl, ?_⟩
    rw [accesses_of_inReset (s := s.assertReset) rfl hb]
    rfl

end Sys2Proof.Machine

/-! PROOFS, the invariant. One lemma per kind of state change keeps `Safety.Inv`; the ways of `Effect`, `AccessEffect`
and `step_cases` are made of these, and every run from reset follows by induction. -/

namespace Sys2Proof.Safety

open Sys2Proof.Machine

/-! ### Reset, and the host's side -/

/-- A core whose elements are all at their reset values has the invariant, whatever its host's side is. -/
theorem inv_of_reset (w : Nat) (z : Bool) (p : List Input) (r : Option BusResponse) :
    Inv { State.reset with window := w, inReset := z, pending := p, response := r } where
  working hv := absurd hv Bool.false_ne_true
  started hv := absurd hv Bool.false_ne_true
  supplied hv := absurd hv Bool.false_ne_true
  exhausted he := absurd he Bool.false_ne_true
  keystream hv := absurd hv Bool.false_ne_true
  fresh hv := absurd hv Bool.false_ne_true
  unbuilt _ := rfl
  unwrittenKey i _ := Vector.getElem_replicate i.isLt
  unwrittenNonce j _ := Vector.getElem_replicate j.isLt
  errNotInitialized _ := rfl
  errExhausted he := ErrCode.noConfusion he
  held hz := by
    obtain rfl : z = true := hz
    rfl

/-- Settles O57: `State.reset` with a window and inputs to come is such a core. -/
theorem invariantAtReset : Obligations.InvariantAtReset :=
  fun w p => inv_of_reset w false p none

/-- The invariant says nothing of the inputs to come and of the last answer. -/
theorem Inv.hostSide {s : State} (h : Inv s) (p : List Input) (r : Option BusResponse) :
    Inv { s with pending := p, response := r } :=
  { h with
    unbuilt := fun hv => congrArg (fun u : State => { u with pending := p, response := r }) (h.unbuilt hv)
    held := fun hz => congrArg (fun u : State => { u with pending := p, response := r }) (h.held hz) }

theorem Inv.releaseReset {s : State} (h : Inv s) : Inv s.releaseReset :=
  { h with
    unbuilt := fun hv => congrArg State.releaseReset (h.unbuilt hv)
    held := fun hz => absurd hz Bool.false_ne_true }

/-! ### Staging writes -/

/-- Writing a staging word and its mask bit keeps the words whose bit is 0 at 0. -/
theorem unwritten_set {n : Nat} {words : Vector Word n} {mask : BitVec n}
    (h : ∀ k : Fin n, mask.getLsbD k.val = false → words[k] = 0#32) (i : Fin n) (v : Word) (k : Fin n)
    (hk : (mask ||| (1#n <<< i.val)).getLsbD k.val = false) : (words.set i v)[k] = 0#32 := by
  rw [BitVec.getLsbD_or, Bool.or_eq_false_iff] at hk
  obtain ⟨hold, hnew⟩ := hk
  have hne : i.val ≠ k.val := by
    intro hik
    simp [hik] at hnew
  rw [Fin.getElem_fin, Vector.getElem_set_ne i.isLt k.isLt hne]
  exact h k hold

theorem Inv.stageKey {s : State} (h : Inv s) (hz : s.inReset = false) (i : Fin 8) (v : Word) : Inv (s.stageKey i v) :=
  { h with
    supplied := fun hv => by
      obtain ⟨hkey, hnonce⟩ := h.supplied hv
      exact ⟨by rw [State.stageKey_keymask, hkey]; exact BitVec.allOnes_or, hnonce⟩
    unbuilt := fun hv => congrArg (State.stageKey · i v) (h.unbuilt hv)
    unwrittenKey := unwritten_set h.unwrittenKey i v
    held := fun hz' => absurd (hz.symm.trans hz') Bool.false_ne_true }

theorem Inv.stageNonce {s : State} (h : Inv s) (hz : s.inReset = false) (j : Fin 3) (v : Word) :
    Inv (s.stageNonce j v) :=
  { h with
    supplied := fun hv => by
      obtain ⟨hkey, hnonce⟩ := h.supplied hv
      exact ⟨hkey, by rw [State.stageNonce_noncemask, hnonce]; exact BitVec.allOnes_or⟩
    unbuilt := fun hv => congrArg (State.stageNonce · j v) (h.unbuilt hv)
    unwrittenNonce := unwritten_set h.unwrittenNonce j v
    held := fun hz' => absurd (hz.symm.trans hz') Bool.false_ne_true }

theorem Inv.stageCtr {s : State} (h : Inv s) (hz : s.inReset = false) (c : Word64) : Inv { s with pctr := c } :=
  { h with
    unbuilt := fun hv => congrArg (fun u : State => { u with pctr := c }) (h.unbuilt hv)
    held := fun hz' => absurd (hz.symm.trans hz') Bool.false_ne_true }

/-! ### Commands -/

/-- A result is reported; the two results that tell of the cipher state have to be true of it. -/
theorem Inv.setErr {s : State} (h : Inv s) (hz : s.inReset = false) {e : ErrCode}
    (hinvalid : e = .notInitialized → s.valid = false) (hexh : e = .counterExhausted → s.exh = true) :
    Inv (s.setErr e) :=
  { h with
    unbuilt := fun hv => congrArg (State.setErr · e) (h.unbuilt hv)
    errNotInitialized := hinvalid
    errExhausted := hexh
    held := fun hz' => absurd (hz.symm.trans hz') Bool.false_ne_true }

/-- A successful INIT builds the invariant up anew from the staging registers. -/
theorem Inv.buildCipher {s : State} (h : Inv s) (hz : s.inReset = false) (hready : readyForInit s) :
    Inv (s.buildCipher.setErr .ok) :=
  { h with
    working := fun _ => rfl
    started := fun _ => Nat.le_refl _
    supplied := fun _ => hready
    exhausted := fun he => absurd he Bool.false_ne_true
    keystream := fun _ hblocks => absurd (by simp [blocksSinceInit]) hblocks
    fresh := fun _ _ => ⟨rfl, rfl, rfl⟩
    unbuilt := fun hv => absurd hv.symm Bool.false_ne_true
    errNotInitialized := fun he => ErrCode.noConfusion he
    errExhausted := fun he => ErrCode.noConfusion he
    held := fun hz' => absurd (hz.symm.trans hz') Bool.false_ne_true }

/-- A command of a cipher state that has generated a block succeeds and writes `DOUT` and `CURSOR`. -/
theorem Inv.output {s : State} (h : Inv s) (hz : s.inReset = false) (hv : s.valid = true)
    (hblocks : blocksSinceInit s ≠ 0) (d : Byte) (c : Fin 65) :
    Inv { s with dout := d, cursor := c, err := .ok } :=
  { h with
    fresh := fun _ hnone => absurd hnone hblocks
    unbuilt := fun hv' => absurd (hv'.symm.trans hv) Bool.false_ne_true
    errNotInitialized := fun he => ErrCode.noConfusion he
    errExhausted := fun he => ErrCode.noConfusion he
    held := fun hz' => absurd (hz.symm.trans hz') Bool.false_ne_true }

/-- The block of the counter before the advance (41_block_transform.md R92). -/
theorem Inv.advance {s : State} (h : Inv s) (hz : s.inReset = false) (hv : s.valid = true) (he : s.exh = false)
    (hmore : s.blkcnt ≠ 0xFFFFFFFFFFFFFFFF#64) :
    Inv (s.writeBlock (block s.ws)).advance ∧ blocksSinceInit (s.writeBlock (block s.ws)).advance ≠ 0 := by
  have hsucc : (s.blkcnt + 1#64).toNat = s.blkcnt.toNat + 1 := toNat_succ_of_ne_last hmore
  have hstart := h.started hv
  have hblocks : blocksSinceInit (s.writeBlock (block s.ws)).advance ≠ 0 := by
    simp only [blocksSinceInit, State.advance_blkcnt, State.writeBlock_blkcnt, State.advance_sctr,
      State.writeBlock_sctr, hsucc]
    omega
  refine ⟨{ h with
    working := fun _ => ?working
    started := fun _ => ?started
    exhausted := fun he' => absurd (he.symm.trans he') Bool.false_ne_true
    keystream := fun _ _ => ?keystream
    fresh := fun _ hnone => absurd hnone hblocks
    unbuilt := fun hv' => absurd (hv'.symm.trans hv) Bool.false_ne_true
    held := fun hz' => absurd (hz.symm.trans hz') Bool.false_ne_true }, hblocks⟩
  case working =>
    simp only [State.advance_ws, State.writeBlock_ws, h.working hv, advanceWords_workingState]
    rfl
  case started =>
    simp only [State.advance_blkcnt, State.writeBlock_blkcnt, State.advance_sctr, State.writeBlock_sctr, hsucc]
    omega
  case keystream =>
    have hlast : lastBlockCounter (s.writeBlock (block s.ws)).advance = s.blkcnt := by
      simp [lastBlockCounter, he]
    rw [hlast]
    exact congrArg block (h.working hv)

/-- The block at the end of the counter space (41_block_transform.md R93). -/
theorem Inv.exhaust {s : State} (h : Inv s) (hz : s.inReset = false) (hv : s.valid = true)
    (hlast : s.blkcnt = 0xFFFFFFFFFFFFFFFF#64) :
    Inv (s.writeBlock (block s.ws)).exhaust ∧ blocksSinceInit (s.writeBlock (block s.ws)).exhaust ≠ 0 := by
  have hblocks : blocksSinceInit (s.writeBlock (block s.ws)).exhaust ≠ 0 := by
    simp [blocksSinceInit]
  exact ⟨{ h with
    exhausted := fun _ => ⟨hv, hlast⟩
    keystream := fun _ _ => congrArg block (h.working hv)
    fresh := fun _ hnone => absurd hnone hblocks
    unbuilt := fun hv' => absurd (hv'.symm.trans hv) Bool.false_ne_true
    errExhausted := fun _ => rfl
    held := fun hz' => absurd (hz.symm.trans hz') Bool.false_ne_true }, hblocks⟩

/-- A command that generates a block and succeeds keeps the invariant, whatever it does to `DOUT` and `CURSOR` then. -/
theorem Inv.generation {s u : State} (h : Inv s) (hz : s.inReset = false) (hv : s.valid = true) (hg : Generation s u)
    (d : Byte) (c : Fin 65) : Inv { u with dout := d, cursor := c, err := .ok } := by
  cases hg with
  | advance he hmore =>
    obtain ⟨hinv, hblocks⟩ := h.advance hz hv he hmore
    exact hinv.output hz hv hblocks d c
  | exhaust _ hlast =>
    obtain ⟨hinv, hblocks⟩ := h.exhaust hz hv hlast
    exact hinv.output hz hv hblocks d c

/-- Every command keeps the invariant. -/
theorem Inv.effect {i : Instr} {s t : State} (h : Inv s) (hz : s.inReset = false) (he : Effect i s t) : Inv t := by
  cases he with
  | initNoKey | initNoNonce => exact h.setErr hz (fun he => ErrCode.noConfusion he) (fun he => ErrCode.noConfusion he)
  | initDone hk hn => exact h.buildCipher hz ⟨hk, hn⟩
  | nextblkInvalid hv | xorInvalid _ hv => exact h.setErr hz (fun _ => hv) (fun he => ErrCode.noConfusion he)
  | nextblkExhausted _ hexh | xorExhausted _ _ _ hexh =>
    exact h.setErr hz (fun he => ErrCode.noConfusion he) (fun _ => hexh)
  | nextblkDone hv hg => exact h.generation hz hv hg _ _
  | xorNewBlock _ hv _ hg => exact h.generation hz hv hg _ _
  | xorInBlock _ hv p hp =>
    have hblocks : blocksSinceInit s ≠ 0 := by
      intro hnone
      obtain ⟨-, hc, -⟩ := h.fresh hv hnone
      have hcv : s.cursor.val = 64 := congrArg Fin.val hc
      omega
    exact h.output hz hv hblocks _ _

/-! ### Accesses, steps and runs -/

theorem Inv.access {a : BusAccess} {s t : State} (h : Inv s) (ha : AccessEffect a s t) : Inv t := by
  have hanswered (r : BusResponse) : Inv (s.respond r) := h.hostSide s.pending (some r)
  cases ha with
  | answered r => exact hanswered r
  | stageKey i v hz => exact (hanswered .writeDone).stageKey hz i v
  | stageNonce j v hz => exact (hanswered .writeDone).stageNonce hz j v
  | stageCtrLo v hz | stageCtrHi v hz => exact (hanswered .writeDone).stageCtr hz _
  | command w i hz _ _ he => exact (hanswered .writeDone).effect hz (exec_iff.1 he)
  | illegal _ _ hz =>
    exact (hanswered .writeDone).setErr hz (fun he => ErrCode.noConfusion he) (fun he => ErrCode.noConfusion he)

/-- Settles O58: of the four kinds of step, the idle one changes nothing, and each of the others is one of the changes
above. -/
theorem everyStepKeepsInvariant : Obligations.EveryStepKeepsInvariant := by
  intro s t h hstep
  have htaken (rest : List Input) : Inv (s.withPending rest) := h.hostSide rest s.response
  obtain ⟨-, rfl⟩ | ⟨a, rest, -, ha⟩ | ⟨rest, -, rfl⟩ | ⟨rest, -, rfl⟩ := step_cases hstep
  · exact h
  · exact (htaken rest).access ha
  · exact inv_of_reset _ true _ _
  · exact (htaken rest).releaseReset

/-- A property that every step keeps holds in every state a run reaches. -/
theorem run_induction {P : State → Prop} (hkept : ∀ s t, P s → step s = .next t → P t) (n : Nat) {s t : State}
    (hs : P s) (hrun : Host.Core.run Sys2Proof.core n s = .next t) : P t := by
  induction n generalizing s with
  | zero =>
    obtain rfl := Host.Outcome.next.inj hrun
    exact hs
  | succ n ih =>
    obtain ⟨u, hu, -⟩ := everyStepAnswersNextState s
    exact ih (hkept s u hs hu) ((run_succ_of_step (M := Sys2Proof.core) hu n).symm.trans hrun)

/-- Settles O59: the working state of `Safety.Inv` has these two words at 12 and 13. -/
theorem counterInvariantReachable : Obligations.CounterInvariantReachable := by
  intro w n p t hrun hv
  have h : Inv t := run_induction everyStepKeepsInvariant n (invariantAtReset w p) hrun
  rw [h.working hv]
  exact ⟨rfl, rfl⟩

end Sys2Proof.Safety

/-! PROOFS, INIT and SETUP. INIT reads only what no command writes; the staging writes of SETUP fill the staging
registers and masks whatever they held. -/

namespace Sys2Proof.Machine

open Sys2Proof.Safety

/-! ### INIT -/

/-- INIT refuses or builds the cipher state, and `ERR` tells which. -/
theorem exec_init_ok {s a : State} (h : exec .init s = .next a) (hok : a.err = .ok) :
    readyForInit s ∧ a = s.buildCipher.setErr .ok := by
  cases exec_iff.1 h with
  | initNoKey | initNoNonce => exact ErrCode.noConfusion hok
  | initDone hk hn => exact ⟨⟨hk, hn⟩, rfl⟩

theorem SameOutside.refl (s : State) : SameOutside s s :=
  ⟨rfl, rfl, rfl, rfl, rfl, rfl, rfl, rfl, rfl⟩

theorem SameOutside.trans {s t u : State} (h : SameOutside s t) (h' : SameOutside t u) : SameOutside s u :=
  ⟨h'.pkey.trans h.pkey, h'.keymask.trans h.keymask, h'.pnonce.trans h.pnonce, h'.noncemask.trans h.noncemask,
    h'.pctr.trans h.pctr, h'.window.trans h.window, h'.inReset.trans h.inReset, h'.pending.trans h.pending,
    h'.response.trans h.response⟩

theorem commands_sameOutside {cs : List Instr} {s t : State} (h : commands cs s = .next t) : SameOutside s t := by
  induction cs generalizing s with
  | nil =>
    cases h
    exact .refl _
  | cons i cs ih =>
    obtain ⟨u, hu, hrest⟩ := andThen_eq_next h
    exact (exec_sameOutside hu).trans (ih hrest)

/-- INIT builds the cipher state from the elements that no command writes (40_init.md R78). -/
theorem SameOutside.buildCipher {s t : State} (h : SameOutside s t) :
    t.buildCipher.setErr .ok = s.buildCipher.setErr .ok := by
  obtain ⟨hpkey, hkeymask, hpnonce, hnoncemask, hpctr, hwindow, hreset, hpending, hresponse⟩ := h
  simp only [State.buildCipher, State.setErr, hpkey, hkeymask, hpnonce, hnoncemask, hpctr, hwindow, hreset, hpending,
    hresponse]

theorem SameOutside.readyForInit {s t : State} (h : SameOutside s t) (hready : readyForInit s) : readyForInit t :=
  ⟨h.keymask.trans hready.1, h.noncemask.trans hready.2⟩

/-- Settles O25: the commands in between leave everything that INIT reads. -/
theorem reInitRebuildsSameState : Obligations.ReInitRebuildsSameState := by
  intro s cs hready
  obtain ⟨t, ht⟩ := commands_next cs s
  have hs := commands_sameOutside ht
  exact ⟨t, _, ht, exec_init_of_ready hready,
    (exec_init_of_ready (hs.readyForInit hready)).trans (congrArg Host.Outcome.next hs.buildCipher)⟩

/-- Settles O26: the words 0 to 3 of the working state are `sigma`, whose words are packed from these codes. -/
theorem constantWordsAreAscii : Obligations.ConstantWordsAreAscii := by
  intro s hready
  have hcodes : sigma = #v[le32 0x65#8 0x78#8 0x70#8 0x61#8, le32 0x6E#8 0x64#8 0x20#8 0x33#8,
      le32 0x32#8 0x2D#8 0x62#8 0x79#8, le32 0x74#8 0x65#8 0x20#8 0x6B#8] := by decide
  have hword {i : Nat} (hi : i < 4) : sigma[i] = _ := congrArg (·[i]) hcodes
  exact ⟨_, exec_init_of_ready hready, hword (i := 0) (by decide), rfl, hword (i := 1) (by decide), rfl,
    hword (i := 2) (by decide), rfl, hword (i := 3) (by decide), rfl⟩

/-! ### Aliased counters -/

/-- NEXTBLK in a cipher state whose counter space is not used up leaves the block of its working state. -/
theorem exec_nextblk_of_ready {s : State} (h : readyForBlock s) :
    ∃ t, exec .nextblk s = .next t ∧ t.ks = block s.ws ∧ t.err = .ok := by
  obtain ⟨hvalid, hexh⟩ := h
  obtain ⟨u, hg⟩ := exists_generation hexh
  exact ⟨u.setErr .ok, exec_of_effect (.nextblkDone hvalid hg), hg.ks, rfl⟩

/-- The working state holds the low half of the counter, and the high half only in a sum (40_init.md R80). -/
theorem workingState_congr {k : Vector Word 8} {n n' : Vector Word 3} {c c' : Word64}
    (hlo : c.extractLsb' 0 32 = c'.extractLsb' 0 32)
    (hsum : n[0] + c.extractLsb' 32 32 = n'[0] + c'.extractLsb' 32 32) (h1 : n[1] = n'[1]) (h2 : n[2] = n'[2]) :
    workingState k n c = workingState k n' c' := by
  rw [workingState_layout, workingState_layout, hlo, hsum, h1, h2]

/-- Settles O27: the two pairs build one working state. -/
theorem aliasedCountersGiveEqualBlocks : Obligations.AliasedCountersGiveEqualBlocks := by
  constructor
  · intro s s' hready hready' hkey hlo hsum h1 h2
    have hws : workingState s.pkey s.pnonce s.pctr = workingState s'.pkey s'.pnonce s'.pctr :=
      hkey ▸ workingState_congr hlo hsum h1 h2
    obtain ⟨t, ht, hks, hok⟩ := exec_nextblk_of_ready (s := s.buildCipher.setErr .ok) ⟨rfl, rfl⟩
    obtain ⟨t', ht', hks', hok'⟩ := exec_nextblk_of_ready (s := s'.buildCipher.setErr .ok) ⟨rfl, rfl⟩
    exact ⟨_, _, t, t', exec_init_of_ready hready, exec_init_of_ready hready', hlo, hsum, ht, ht',
      hks.trans ((congrArg block hws).trans hks'.symm), hok, hok'⟩
  · intro k n1 n2
    have hsum : 0xFFFFFFFF#32 + (0x0000000100000000#64).extractLsb' 32 32 =
        0x00000000#32 + (0x0000000000000000#64).extractLsb' 32 32 := by decide
    exact congrArg block (workingState_congr rfl hsum rfl rfl)

/-! ### SETUP -/

/-- The words of an array after the words `is` were written, one after another. -/
def setWords {n : Nat} (f : Fin n → Word) (is : List (Fin n)) (words : Vector Word n) : Vector Word n :=
  is.foldl (fun v (i : Fin n) => v.set i (f i)) words

/-- A mask after the bits `is` were set, one after another. -/
def setBits {n : Nat} (is : List (Fin n)) (mask : BitVec n) : BitVec n :=
  is.foldl (fun m (i : Fin n) => m ||| (1#n <<< i.val)) mask

theorem setWords_getElem {n : Nat} (f : Fin n → Word) (is : List (Fin n)) (words : Vector Word n) (k : Fin n) :
    (setWords f is words)[k] = if k ∈ is then f k else words[k] := by
  induction is generalizing words with
  | nil => simp [setWords]
  | cons i is ih =>
    refine (ih (words.set i (f i))).trans ?_
    by_cases hk : k ∈ is
    · simp [hk]
    · by_cases hik : i = k
      · simp [hik]
      · simp [hk, Ne.symm hik, Vector.getElem_set_ne, Fin.val_ne_of_ne hik]

/-- Writing every word of an array leaves the values written. -/
theorem setWords_finRange {n : Nat} (f : Fin n → Word) (words : Vector Word n) :
    setWords f (List.finRange n) words = Vector.ofFn f := by
  apply Vector.ext
  intro k hk
  rw [Vector.getElem_ofFn]
  exact (setWords_getElem f _ words ⟨k, hk⟩).trans (if_pos (List.mem_finRange _))

theorem setBits_getLsbD {n : Nat} (is : List (Fin n)) (mask : BitVec n) (k : Fin n) :
    (setBits is mask).getLsbD k.val = (decide (k ∈ is) || mask.getLsbD k.val) := by
  induction is generalizing mask with
  | nil => simp [setBits]
  | cons i is ih =>
    have hbit : (1#n <<< i.val).getLsbD k.val = decide (k = i) := by
      rw [← BitVec.twoPow_eq, BitVec.getLsbD_twoPow, decide_eq_true i.isLt, Bool.true_and]
      simp only [Fin.ext_iff, eq_comm]
    refine (ih (mask ||| (1#n <<< i.val))).trans ?_
    rw [BitVec.getLsbD_or, hbit]
    simp only [List.mem_cons, Bool.decide_or, Bool.or_comm, Bool.or_assoc]

/-- Setting every bit of a mask leaves the mask of ones. -/
theorem setBits_finRange {n : Nat} (mask : BitVec n) : setBits (List.finRange n) mask = BitVec.allOnes n := by
  apply BitVec.eq_of_getLsbD_eq
  intro k hk
  simpa [hk] using setBits_getLsbD (List.finRange n) mask ⟨k, hk⟩

theorem accesses_keyWrites (f : Fin 8 → Word) (is : List (Fin 8)) {s : State} (hz : s.inReset = false) :
    ∃ r, accesses (is.map fun i => wr s.base (.keyw i) (f i)) s =
      .next { s with pkey := setWords f is s.pkey, keymask := setBits is s.keymask, response := r } := by
  induction is generalizing s with
  | nil => exact ⟨s.response, rfl⟩
  | cons i is ih =>
    obtain ⟨r, hr⟩ := ih (s := (s.respond .writeDone).stageKey i (f i)) hz
    exact ⟨r, (accesses_cons_of_access (access_write_reg s (.keyw i) (f i) hz) _).trans hr⟩

theorem accesses_nonceWrites (f : Fin 3 → Word) (js : List (Fin 3)) {s : State} (hz : s.inReset = false) :
    ∃ r, accesses (js.map fun j => wr s.base (.noncew j) (f j)) s =
      .next { s with pnonce := setWords f js s.pnonce, noncemask := setBits js s.noncemask, response := r } := by
  induction js generalizing s with
  | nil => exact ⟨s.response, rfl⟩
  | cons j js ih =>
    obtain ⟨r, hr⟩ := ih (s := (s.respond .writeDone).stageNonce j (f j)) hz
    exact ⟨r, (accesses_cons_of_access (access_write_reg s (.noncew j) (f j) hz) _).trans hr⟩

/-- LOADKEY stages the packed key, whatever was staged before (30_encoding.md R66). -/
theorem accesses_loadKey {s : State} (hz : s.inReset = false) (k : Vector Byte (4 * 8)) :
    ∃ r, accesses (loadKey s.base k) s =
      .next { s with pkey := packWords k, keymask := 0xFF#8, response := r } := by
  obtain ⟨r, hr⟩ := accesses_keyWrites (packWord k) (List.finRange 8) hz
  rw [setWords_finRange, setBits_finRange] at hr
  exact ⟨r, hr⟩

/-- LOADNONCE stages the packed nonce (30_encoding.md R66). -/
theorem accesses_loadNonce {s : State} (hz : s.inReset = false) (n : Vector Byte (4 * 3)) :
    ∃ r, accesses (loadNonce s.base n) s =
      .next { s with pnonce := packWords n, noncemask := 0x7#3, response := r } := by
  obtain ⟨r, hr⟩ := accesses_nonceWrites (packWord n) (List.finRange 3) hz
  rw [setWords_finRange, setBits_finRange] at hr
  exact ⟨r, hr⟩

/-- LOADCTR stages the counter: each half keeps the other (30_encoding.md R66). -/
theorem accesses_loadCtr {s : State} (hz : s.inReset = false) (c : Word64) :
    accesses (loadCtr s.base c) s = .next { s with pctr := c, response := some .writeDone } := by
  have hlo := access_write_reg s .ctrwLo (lo32 c) hz
  have hhi := access_write_reg ((s.respond .writeDone).stageCtrLo (lo32 c)) .ctrwHi (hi32 c) hz
  have hjoin : join64 (hi32 c) (lo32 (join64 (hi32 s.pctr) (lo32 c))) = c := by simp
  refine (accesses_cons_of_access hlo _).trans ((accesses_cons_of_access hhi []).trans ?_)
  exact congrArg (fun c => Host.Outcome.next { s with pctr := c, response := some .writeDone }) hjoin

/-- The write of a command to CMD runs it (30_encoding.md R65). -/
theorem access_wrCmd {s : State} (hz : s.inReset = false) (i : Instr) :
    access (wrCmd s.base i) s = exec i (s.respond .writeDone) :=
  (access_write_cmd hz (encode i)).trans (writeCmd_of_ok (decode_encode i) _)

/-- The state in which SETUP issues its INIT: key, nonce and counter are staged whole. -/
def State.stagedFor (s : State) (k : Vector Byte (4 * 8)) (n : Vector Byte (4 * 3)) (c : Word64) : State :=
  { s with
    pkey := packWords k
    keymask := 0xFF#8
    pnonce := packWords n
    noncemask := 0x7#3
    pctr := c
    response := some .writeDone }

/-- SETUP ends in an INIT over the staged key, nonce and counter (30_encoding.md R66). -/
theorem accesses_setup {s : State} (hz : s.inReset = false) (k : Vector Byte (4 * 8)) (n : Vector Byte (4 * 3))
    (c : Word64) : accesses (setup s.base k n c) s = .next ((s.stagedFor k n c).buildCipher.setErr .ok) := by
  obtain ⟨r, hkey⟩ := accesses_loadKey hz k
  obtain ⟨r', hnonce⟩ := accesses_loadNonce
    (s := { s with pkey := packWords k, keymask := 0xFF#8, response := r }) hz n
  have hctr := accesses_loadCtr
    (s := { s with pkey := packWords k, keymask := 0xFF#8, pnonce := packWords n, noncemask := 0x7#3, response := r' })
    hz c
  have hinit : access (wrCmd s.base .init) (s.stagedFor k n c) = .next ((s.stagedFor k n c).buildCipher.setErr .ok) :=
    (access_wrCmd (s := s.stagedFor k n c) hz .init).trans (exec_init_of_ready ⟨rfl, rfl⟩)
  rw [setup, accesses_append, accesses_append, accesses_append, hkey, andThen_next]
  refine (congrArg (fun o => andThen (andThen o _) _) hnonce).trans ?_
  refine (congrArg (fun o => andThen o _) hctr).trans ?_
  exact accesses_cons_of_access hinit []

/-- STATUS with a cipher state, no error, and key and nonce supplied (10_state.md R31). -/
theorem statusWord_of_ready {s : State} (hready : readyForInit s) (hblock : readyForBlock s) (hok : s.err = .ok) :
    s.statusWord = 0x0007FF01#32 := by
  obtain ⟨hkey, hnonce⟩ := hready
  obtain ⟨hvalid, hexh⟩ := hblock
  rw [State.statusWord, hvalid, hexh, hok, hkey, hnonce]
  rfl

/-- Settles O28: SETUP leaves the working state of the packed key and nonce and of the counter. -/
theorem setupRealizesInitialize : Obligations.SetupRealizesInitialize := by
  intro s k n c hz
  have hkey (i : Fin 8) : (packWords k)[i] = packWord k i := Vector.getElem_ofFn i.isLt
  have hnonce (j : Fin 3) : (packWords n)[j] = packWord n j := Vector.getElem_ofFn j.isLt
  have hws (i : Fin 8) : (workingState (packWords k) (packWords n) c)[4 + i.val] = (packWords k)[i] := by
    rw [workingState_layout]
    fin_cases i <;> rfl
  exact ⟨_, accesses_setup hz k n c, fun i => ⟨hkey i, hws i⟩, hnonce, rfl, rfl, rfl, rfl, rfl, rfl, rfl, rfl, rfl, rfl,
    rfl, statusWord_of_ready ⟨rfl, rfl⟩ ⟨rfl, rfl⟩ rfl⟩

end Sys2Proof.Machine

/-! PROOFS, blocks and counters. Quarter-rounds over different words commute; a command generates a block or leaves the
counter; and the statements about where the counter stands after any commands. -/

namespace Sys2Proof.Machine

open Sys2Proof.Safety

/-! ### The quarter-rounds of a round -/

theorem quarterRound_getElem_of_notMem (x : Scratch) {p : Pattern} (hp : p.indices.Nodup) {i : Fin 16}
    (hi : i ∉ p.indices) : (quarterRound x p)[i] = x[i] := by
  obtain ⟨-, -, -, -, hother⟩ :=
    quarterRoundSteps x p.a p.b p.c p.d _ _ _ _ _ _ _ _ hp rfl rfl rfl rfl rfl rfl rfl rfl
  exact hother i hi

/-- A quarter-round reads only the words of its own pattern. -/
theorem quarterRound_getElem_congr {x y : Scratch} {p : Pattern} (hp : p.indices.Nodup)
    (hxy : ∀ i ∈ p.indices, x[i] = y[i]) {i : Fin 16} (hi : i ∈ p.indices) :
    (quarterRound x p)[i] = (quarterRound y p)[i] := by
  obtain ⟨hxa, hxb, hxc, hxd, -⟩ :=
    quarterRoundSteps x p.a p.b p.c p.d _ _ _ _ _ _ _ _ hp rfl rfl rfl rfl rfl rfl rfl rfl
  obtain ⟨hya, hyb, hyc, hyd, -⟩ :=
    quarterRoundSteps y p.a p.b p.c p.d _ _ _ _ _ _ _ _ hp rfl rfl rfl rfl rfl rfl rfl rfl
  simp only [Pattern.indices, List.forall_mem_cons, List.not_mem_nil, false_imp_iff, implies_true, and_true] at hxy
  obtain ⟨ha, hb, hc, hd⟩ := hxy
  rw [ha, hb, hc, hd] at hxa hxb hxc hxd
  simp only [Pattern.indices, List.mem_cons, List.not_mem_nil, or_false] at hi
  obtain rfl | rfl | rfl | rfl := hi
  · exact hxa.trans hya.symm
  · exact hxb.trans hyb.symm
  · exact hxc.trans hyc.symm
  · exact hxd.trans hyd.symm

/-- No word belongs to both patterns. -/
def Pattern.Apart (p q : Pattern) : Prop := ∀ i ∈ p.indices, i ∉ q.indices

/-- The words of the first of two patterns that are apart are those its own quarter-round leaves, in either order. -/
theorem quarterRound_comm_getElem (x : Scratch) {p q : Pattern} (hp : p.indices.Nodup) (hq : q.indices.Nodup)
    (hpq : p.Apart q) {i : Fin 16} (hi : i ∈ p.indices) :
    (quarterRound (quarterRound x p) q)[i] = (quarterRound (quarterRound x q) p)[i] :=
  calc (quarterRound (quarterRound x p) q)[i]
      = (quarterRound x p)[i] := quarterRound_getElem_of_notMem _ hq (hpq i hi)
    _ = (quarterRound (quarterRound x q) p)[i] :=
        quarterRound_getElem_congr hp (fun j hj => (quarterRound_getElem_of_notMem x hq (hpq j hj)).symm) hi

theorem quarterRound_comm (x : Scratch) {p q : Pattern} (hp : p.indices.Nodup) (hq : q.indices.Nodup)
    (hpq : p.Apart q) : quarterRound (quarterRound x p) q = quarterRound (quarterRound x q) p := by
  have hqp : q.Apart p := fun i hi hi' => hpq i hi' hi
  apply Vector.ext
  intro k hk
  change (quarterRound (quarterRound x p) q)[(⟨k, hk⟩ : Fin 16)] =
    (quarterRound (quarterRound x q) p)[(⟨k, hk⟩ : Fin 16)]
  by_cases hkp : ⟨k, hk⟩ ∈ p.indices
  · exact quarterRound_comm_getElem x hp hq hpq hkp
  · by_cases hkq : ⟨k, hk⟩ ∈ q.indices
    · exact (quarterRound_comm_getElem x hq hp hqp hkq).symm
    · rw [quarterRound_getElem_of_notMem _ hq hkq, quarterRound_getElem_of_notMem _ hp hkp,
        quarterRound_getElem_of_notMem _ hp hkp, quarterRound_getElem_of_notMem _ hq hkq]

/-- Patterns of distinct indices, any two of them equal or apart, may be taken in any order. -/
theorem quarterRounds_eq_of_perm {ps qs : List Pattern} (hperm : ps.Perm qs) (hnodup : ∀ p ∈ qs, p.indices.Nodup)
    (hapart : ∀ p ∈ qs, ∀ q ∈ qs, p = q ∨ p.Apart q) (x : Scratch) : quarterRounds ps x = quarterRounds qs x := by
  refine hperm.foldl_eq' (fun p hp q hq z => ?_) x
  have hp' := hperm.mem_iff.1 hp
  have hq' := hperm.mem_iff.1 hq
  obtain rfl | hpq := hapart p hp' q hq'
  · rfl
  · exact quarterRound_comm z (hnodup p hp') (hnodup q hq') hpq

/-- Settles O30: within each round the four patterns are apart. -/
theorem quarterRoundsOfARoundCommute : Obligations.QuarterRoundsOfARoundCommute := by
  refine ⟨by decide, by decide, fun ps x hperm => ?_, fun ps x hperm => ?_⟩
  · exact quarterRounds_eq_of_perm hperm (by decide) (by unfold Pattern.Apart; decide) x
  · exact quarterRounds_eq_of_perm hperm (by decide) (by unfold Pattern.Apart; decide) x

/-- Settles O32: the three values, by evaluation. -/
theorem blockKnownAnswers : Obligations.BlockKnownAnswers := by
  refine ⟨?_, ?_, ?_⟩ <;> decide +kernel

/-! ### Which commands generate a block -/

theorem exec_of_generates {i : Instr} {s t : State} (hgen : generates i s = true) (h : exec i s = .next t) :
    ∃ u, Generation s u ∧ t = { u with dout := t.dout, cursor := t.cursor, err := .ok } := by
  cases exec_iff.1 h with
  | initNoKey | initNoNonce | initDone => simp [generates] at hgen
  | nextblkInvalid hv | xorInvalid _ hv => simp [generates, hv] at hgen
  | nextblkExhausted _ he | xorExhausted _ _ _ he => simp [generates, he] at hgen
  | nextblkDone _ hg | xorNewBlock _ _ _ hg => exact ⟨_, hg, rfl⟩
  | xorInBlock _ _ p hp =>
    have hc : s.cursor.val ≠ 64 := by omega
    simp [generates, hc] at hgen

theorem exec_of_not_generates {i : Instr} {s t : State} (hgen : generates i s = false) (hi : i ≠ .init)
    (h : exec i s = .next t) : t = { s with dout := t.dout, cursor := t.cursor, err := t.err } := by
  cases exec_iff.1 h with
  | initNoKey | initNoNonce | initDone => exact absurd rfl hi
  | nextblkInvalid | xorInvalid | nextblkExhausted | xorExhausted | xorInBlock => rfl
  | nextblkDone hv hg => simp [generates, hv, hg.exh_eq_false] at hgen
  | xorNewBlock _ hv hc hg => simp [generates, hv, hc, hg.exh_eq_false] at hgen

theorem generations_cons {i : Instr} {s t : State} (h : exec i s = .next t) (cs : List Instr) :
    generations (i :: cs) s = (generates i s).toNat + generations cs t := by
  rw [generations, h]

/-! ### The counter after any commands -/

/-- A cipher state of this key and nonce at counter `c`, with its counter space not used up. -/
structure RunningAt (k : Vector Word 8) (n : Vector Word 3) (c : Word64) (s : State) : Prop where
  ready : readyForBlock s
  nonce : s.nonce = n
  blkcnt : s.blkcnt = c
  ws : s.ws = workingState k n c

theorem RunningAt.buildCipher (s : State) : RunningAt s.pkey s.pnonce s.pctr (s.buildCipher.setErr .ok) :=
  ⟨⟨rfl, rfl⟩, rfl, rfl, rfl⟩

/-- `DOUT`, `CURSOR` and `ERR` play no part. -/
theorem RunningAt.output {k : Vector Word 8} {n : Vector Word 3} {c : Word64} {s : State} (h : RunningAt k n c s)
    (d : Byte) (p : Fin 65) (e : ErrCode) : RunningAt k n c { s with dout := d, cursor := p, err := e } :=
  ⟨h.ready, h.nonce, h.blkcnt, h.ws⟩

/-- Before the last counter value a generation goes on to the next. -/
theorem RunningAt.generation {k : Vector Word 8} {n : Vector Word 3} {c : Word64} {s u : State}
    (h : RunningAt k n c s) (hg : Generation s u) (hc : c.toNat + 1 ≤ 2 ^ 64 - 1) : RunningAt k n (c + 1#64) u := by
  obtain ⟨⟨hvalid, hexh⟩, hnonce, hblkcnt, hws⟩ := h
  cases hg with
  | advance =>
    refine ⟨⟨hvalid, hexh⟩, hnonce, congrArg (· + 1#64) hblkcnt, ?_⟩
    exact (congrArg advanceWords hws).trans (advanceWords_workingState k n c)
  | exhaust _ hlast =>
    have hmax : c.toNat = 2 ^ 64 - 1 := congrArg BitVec.toNat (hblkcnt.symm.trans hlast)
    omega

/-- After commands that generate `generations` blocks in all, the counter stands that much further
(41_block_transform.md R98). -/
theorem RunningAt.commands {k : Vector Word 8} {n : Vector Word 3} {c : Word64} {cs : List Instr} {s : State}
    (h : RunningAt k n c s) (hinit : .init ∉ cs) (hc : c.toNat + generations cs s ≤ 2 ^ 64 - 1) :
    ∃ t, commands cs s = .next t ∧ RunningAt k n (c + BitVec.ofNat 64 (generations cs s)) t := by
  induction cs generalizing c s with
  | nil => exact ⟨s, rfl, by simpa [generations] using h⟩
  | cons i cs ih =>
    obtain ⟨u, hu⟩ := exec_next i s
    obtain ⟨hi, hcs⟩ : Instr.init ≠ i ∧ .init ∉ cs := by simpa using hinit
    rw [generations_cons hu] at hc ⊢
    rw [commands_cons_of_exec hu]
    cases hgen : generates i s with
    | false =>
      have hrun : RunningAt k n c u := by
        rw [exec_of_not_generates hgen hi.symm hu]
        exact h.output _ _ _
      simpa [hgen] using ih hrun hcs (by simpa [hgen] using hc)
    | true =>
      rw [hgen, Bool.toNat_true] at hc
      obtain ⟨v, hg, hv⟩ := exec_of_generates hgen hu
      have hrun : RunningAt k n (c + 1#64) u := by
        rw [hv]
        exact (h.generation hg (by omega)).output _ _ _
      have hsucc : (c + 1#64).toNat = c.toNat + 1 := by
        rw [BitVec.toNat_add, BitVec.toNat_ofNat]
        omega
      obtain ⟨t, ht, hrun'⟩ := ih hrun hcs (by omega)
      exact ⟨t, ht, by rwa [Bool.toNat_true, BitVec.ofNat_add, ← BitVec.add_assoc]⟩

/-- Settles O38: both cores run at counter `c + k`, so their working states and next blocks agree. -/
theorem counterAdvanceCorrect : Obligations.CounterAdvanceCorrect := by
  intro s a cs h hok hinit hspace
  obtain ⟨hready, rfl⟩ := exec_init_ok h hok
  obtain ⟨c, hc⟩ : ∃ c, c = BitVec.ofNat 64 (s.pctr.toNat + generations cs (s.buildCipher.setErr .ok)) := ⟨_, rfl⟩
  obtain ⟨t, ht, hrun⟩ := (RunningAt.buildCipher s).commands hinit hspace
  rw [show s.pctr + BitVec.ofNat 64 (generations cs (s.buildCipher.setErr .ok)) = c by
    rw [hc, BitVec.ofNat_add, BitVec.ofNat_toNat, BitVec.setWidth_eq]] at hrun
  obtain ⟨hblock, hnonce, hblkcnt, hws⟩ := hrun
  have hfresh := RunningAt.buildCipher { s with pctr := c }
  obtain ⟨t', ht', hks, hok'⟩ := exec_nextblk_of_ready hblock
  obtain ⟨b', hb', hks', -⟩ := exec_nextblk_of_ready hfresh.ready
  refine ⟨t, _, t', b', c, hc, ht, exec_init_of_ready (s := { s with pctr := c }) hready, hblkcnt, ?_, ?_, hws, hblkcnt,
    ht', hb', hok', (hks.trans (congrArg block hws)).trans hks'.symm⟩
  · rw [hws]
    rfl
  · rw [hws, hnonce]
    rfl

/-! ### The counter never goes back -/

/-- `t` is not behind `s` in the counter space. -/
structure NotBehind (s t : State) : Prop where
  blkcnt : s.blkcnt.toNat ≤ t.blkcnt.toNat
  exh : s.exh = true → t.exh = true

theorem Continues.notBehind {s t : State} (h : Continues s t) : NotBehind s t := by
  cases h.counter with
  | kept hexh hblkcnt => exact ⟨by rw [hblkcnt], fun he => hexh.trans he⟩
  | advanced hfree hmore _ _ hblkcnt =>
    refine ⟨?_, fun he => absurd (hfree.symm.trans he) Bool.false_ne_true⟩
    rw [hblkcnt, toNat_succ_of_ne_last hmore]
    omega
  | exhausted _ _ _ hexh hblkcnt => exact ⟨by rw [hblkcnt], fun _ => hexh⟩

theorem commands_notBehind {cs : List Instr} {s t : State} (hinit : .init ∉ cs) (h : commands cs s = .next t) :
    NotBehind s t := by
  induction cs generalizing s with
  | nil =>
    cases h
    exact ⟨Nat.le_refl _, id⟩
  | cons i cs ih =>
    obtain ⟨u, hu, hrest⟩ := andThen_eq_next h
    obtain ⟨hi, hcs⟩ : Instr.init ≠ i ∧ .init ∉ cs := by simpa using hinit
    have hhead : NotBehind s u :=
      ((exec_iff.1 hu).init_or_continues.resolve_left fun hready => hi hready.1.symm).notBehind
    have htail : NotBehind u t := ih hcs hrest
    exact ⟨hhead.blkcnt.trans htail.blkcnt, fun he => htail.exh (hhead.exh he)⟩

/-- Settles O39: after the first block the counter is one further, or it is used up and no later command generates. -/
theorem counterValueNeverReused : Obligations.CounterValueNeverReused := by
  intro s a t i j cs hi ha hinit ht hj
  obtain ⟨u, hg, hu⟩ := exec_of_generates hi ha
  obtain ⟨hblkcnt, hexh⟩ := commands_notBehind hinit ht
  rw [hu] at hblkcnt hexh
  cases hg with
  | advance _ hmore =>
    have hsucc := toNat_succ_of_ne_last hmore
    simp only [State.advance_blkcnt, State.writeBlock_blkcnt] at hblkcnt
    omega
  | exhaust =>
    have hused : t.exh = true := hexh rfl
    simp [generates, hused] at hj

end Sys2Proof.Machine

/-! PROOFS, the stream of bytes. The bytes of a block in `KS`, the XORs that use one block in order, and the position of
an XOR in the stream from INIT. -/

namespace Sys2Proof.Machine

open Sys2Proof.Safety

/-! ### The bytes of a block -/

theorem ksByte_eq_byteOf (ks : Vector Word 16) {i r j : Nat} (hi : i < 16) (hr : r < 4) (hj : j < 64)
    (h : j = 4 * i + r) : ksByte ks ⟨j, hj⟩ = byteOf ks[i] r := by
  have hdiv : j / 4 = i := by omega
  have hmod : j % 4 = r := by omega
  simp only [ksByte, hdiv, hmod]

/-- Settles O43: the four bytes of a word are its bytes in order, and `le32` packs them again. -/
theorem keystreamBytesAreLittleEndian : Obligations.KeystreamBytesAreLittleEndian := by
  refine fun ks => ⟨fun j => rfl, Vector.ext fun i hi => ?_⟩
  have hbyte {r j : Nat} (hr : r < 4) (hj : j < 64) (h : j = 4 * i + r) : ksByte ks ⟨j, hj⟩ = byteOf ks[i] r :=
    ksByte_eq_byteOf ks hi hr hj h
  simp only [packWords, packWord, Vector.getElem_ofFn]
  rw [hbyte (r := 0) (j := 4 * i) (by decide) (by omega) rfl, hbyte (r := 1) (by decide) (by omega) rfl,
    hbyte (r := 2) (by decide) (by omega) rfl, hbyte (r := 3) (by decide) (by omega) rfl]
  exact le32_byteOf ks[i]

/-! ### One XOR -/

/-- Settles O40: the XOR is the `xorInBlock` way of `Effect`. -/
theorem xorConsumesByteInBlock : Obligations.XorConsumesByteInBlock :=
  fun _ d p hvalid hc => exec_of_effect (.xorInBlock d hvalid p hc)

/-- Settles O42: the two refusals of `Effect`. -/
theorem refusedXorChangesOnlyErr : Obligations.RefusedXorChangesOnlyErr :=
  fun _ d => ⟨fun hvalid => exec_of_effect (.xorInvalid d hvalid),
    fun hvalid hc hexh => exec_of_effect (.xorExhausted d hvalid hc hexh)⟩

/-- Settles O49: NEXTBLK leaves `CURSOR`, so the XOR starts the block after it or goes on inside the block it made. -/
theorem nextblkShiftsTheStream : Obligations.NextblkShiftsTheStream := by
  intro s d ⟨hvalid, hexh⟩ hmore
  obtain ⟨u, hu⟩ : ∃ u, u = (s.writeBlock (block s.ws)).advance.setErr .ok := ⟨_, rfl⟩
  have hnextblk : exec .nextblk s = .next u := hu ▸ exec_nextblk_advance ⟨hvalid, hexh⟩ hmore
  have hks : u.ks = block s.ws := hu ▸ rfl
  have hcursor : u.cursor = s.cursor := hu ▸ rfl
  have huvalid : u.valid = true := hu ▸ hvalid
  by_cases hc : s.cursor.val = 64
  · obtain ⟨v, hg⟩ := exists_generation (s := u) (hu ▸ hexh)
    have hxor := exec_of_effect (.xorNewBlock d huvalid (hcursor ▸ hc) hg)
    exact ⟨u, _, hnextblk, hxor, hks, rfl, fun _ => ⟨hg.ks, congrArg (fun ks => d ^^^ ksByte ks 0) hg.ks, rfl⟩,
      fun p hp => by omega⟩
  · have hlt : s.cursor.val < 64 := by omega
    have hxor := exec_of_effect (.xorInBlock d huvalid ⟨s.cursor.val, hlt⟩ (congrArg Fin.val hcursor))
    refine ⟨u, _, hnextblk, hxor, hks, rfl, fun hc' => absurd hc' hc, fun p hp => ?_⟩
    obtain rfl : p = ⟨s.cursor.val, hlt⟩ := Fin.ext hp.symm
    exact ⟨hks, congrArg (fun ks => d ^^^ ksByte ks _) hks, rfl⟩

/-! ### The XORs of one block -/

/-- From `CURSOR` = 64 the XOR after `m` others, up to the 64th, combines its byte with byte `m` of the one block that
the first of them generates (42_stream_xor.md R104). -/
theorem commands_xors_of_generation {s u : State} (hvalid : s.valid = true) (hc : s.cursor.val = 64)
    (hg : Generation s u) (ds : List Byte) (d : Byte) (m : Fin 64) (hm : ds.length = m.val) :
    commands ((ds ++ [d]).map .xor) s = .next ((u.consume d m).setErr .ok) := by
  induction ds using List.reverseRecOn generalizing d m with
  | nil =>
    obtain rfl : m = 0 := Fin.ext hm.symm
    exact commands_cons_of_exec (exec_of_effect (.xorNewBlock d hvalid hc hg)) []
  | append_singleton ds d' ih =>
    rw [List.length_append, List.length_singleton] at hm
    have hm' : ds.length < 64 := by omega
    have huvalid : u.valid = true := (hg.continues 0#8 0).valid.trans hvalid
    have hlast : exec (.xor d) ((u.consume d' ⟨ds.length, hm'⟩).setErr .ok) = .next ((u.consume d m).setErr .ok) :=
      exec_of_effect (.xorInBlock (s := (u.consume d' ⟨ds.length, hm'⟩).setErr .ok) d huvalid m hm)
    rw [List.map_append, commands_append, ih d' ⟨ds.length, hm'⟩ rfl]
    exact commands_cons_of_exec hlast []

/-- Settles O44: the block that the first XOR generates is that of the working state as it stood. -/
theorem streamingAgreesWithExtraction : Obligations.StreamingAgreesWithExtraction := by
  intro s ds d m ⟨hvalid, hexh⟩ hc hm
  obtain ⟨u, hg⟩ := exists_generation hexh
  refine ⟨_, commands_xors_of_generation hvalid hc hg ds d m hm, hg.ks, ?_, rfl, rfl⟩
  change d ^^^ ksByte u.ks m ^^^ d = ksByte u.ks m
  rw [BitVec.xor_comm d, BitVec.xor_assoc, BitVec.xor_self, BitVec.xor_zero]

/-! ### The XORs of many blocks -/

/-- Each 64 XORs from `CURSOR` = 64 use up one block and end at `CURSOR` = 64 (42_stream_xor.md R109). -/
theorem RunningAt.xors {k : Vector Word 8} {n : Vector Word 3} {c : Word64} {s : State} (h : RunningAt k n c s)
    (hc : s.cursor.val = 64) (q : Nat) {ds : List Byte} (hlen : ds.length = 64 * q)
    (hspace : c.toNat + q ≤ 2 ^ 64 - 1) :
    ∃ t, Machine.commands (ds.map .xor) s = .next t ∧ RunningAt k n (c + BitVec.ofNat 64 q) t ∧ t.cursor.val = 64 := by
  induction q generalizing ds with
  | zero =>
    obtain rfl : ds = [] := List.length_eq_zero_iff.1 hlen
    exact ⟨s, rfl, by simpa using h, hc⟩
  | succ q ih =>
    obtain ⟨t, ht, hrun, hct⟩ := ih (ds := ds.take (64 * q)) (by rw [List.length_take]; omega) (by omega)
    obtain ⟨u, hg⟩ := exists_generation hrun.ready.2
    have hblock : (ds.drop (64 * q)).length = 64 := by
      rw [List.length_drop]
      omega
    obtain ⟨ds', d, hsplit⟩ : ∃ ds' d, ds.drop (64 * q) = ds' ++ [d] :=
      (List.eq_nil_or_concat' _).resolve_left (List.ne_nil_of_length_eq_add_one hblock)
    have hxors := commands_xors_of_generation hrun.ready.1 hct hg ds' d 63 (by
      rw [hsplit, List.length_append, List.length_singleton] at hblock
      exact Nat.succ.inj hblock)
    have hcq : (c + BitVec.ofNat 64 q).toNat = c.toNat + q := by
      rw [BitVec.toNat_add, BitVec.toNat_ofNat]
      omega
    refine ⟨(u.consume d 63).setErr .ok, ?_, ?_, rfl⟩
    · rw [← List.take_append_drop (64 * q) ds, List.map_append, commands_append, ht, hsplit]
      exact hxors
    · rw [BitVec.ofNat_add, ← BitVec.add_assoc]
      exact (hrun.generation hg (by omega)).output _ _ _

/-- Settles O45: whole blocks of 64 bytes bring the counter to that of the block, and the rest are the XORs of one
block. -/
theorem keystreamPosition : Obligations.KeystreamPosition := by
  intro s a ds d h hok hspace
  obtain ⟨-, rfl⟩ := exec_init_ok h hok
  obtain ⟨q, hq⟩ : ∃ q, q = ds.length / 64 := ⟨_, rfl⟩
  obtain ⟨m, hm⟩ : ∃ m : Fin 64, m = ⟨ds.length % 64, Nat.mod_lt _ (by decide)⟩ := ⟨_, rfl⟩
  rw [← hq] at hspace ⊢
  rw [← hm]
  have htake : (ds.take (64 * q)).length = 64 * q := by
    rw [List.length_take]
    omega
  have hdrop : (ds.drop (64 * q)).length = m.val := by
    rw [List.length_drop, hm]
    simp only
    omega
  obtain ⟨t, ht, hrun, hct⟩ := (RunningAt.buildCipher s).xors rfl q htake hspace
  obtain ⟨u, hg⟩ := exists_generation hrun.ready.2
  have hxors := commands_xors_of_generation hrun.ready.1 hct hg (ds.drop (64 * q)) d m hdrop
  have hks : u.ks = block (workingState s.pkey s.pnonce (BitVec.ofNat 64 (s.pctr.toNat + q))) := by
    rw [hg.ks, hrun.ws, BitVec.ofNat_add, BitVec.ofNat_toNat, BitVec.setWidth_eq]
  refine ⟨(u.consume d m).setErr .ok, ?_, rfl, congrArg (fun ks => d ^^^ ksByte ks m) hks⟩
  calc commands ((ds ++ [d]).map .xor) (s.buildCipher.setErr .ok)
      = commands ((ds.take (64 * q)).map .xor ++ (ds.drop (64 * q) ++ [d]).map .xor) (s.buildCipher.setErr .ok) := by
        rw [← List.map_append, ← List.append_assoc, List.take_append_drop]
    _ = commands ((ds.drop (64 * q) ++ [d]).map .xor) t := by rw [commands_append, ht, andThen_next]
    _ = _ := hxors

end Sys2Proof.Machine

/-! PROOFS, the host's loop. One byte of the loop at a time; a refused XOR is refused again; and two cores with the same
stream. -/

namespace Sys2Proof.Machine

open Sys2Proof.Safety

/-- Settles O48: both are empty by definition. -/
theorem zeroLengthApplyDoesNothing : Obligations.ZeroLengthApplyDoesNothing :=
  fun _ => ⟨rfl, rfl⟩

/-! ### A refused XOR -/

/-- The loop stops at an XOR after which `ERR` tells of a refusal (42_stream_xor.md R106). -/
theorem applyKeystream_cons_of_refused {b : Byte} {s t : State} (h : access (wrCmd s.base (.xor b)) s = .next t)
    (herr : t.err ≠ .ok) (rest : List Byte) : applyKeystream (b :: rest) s = .next (t, b :: rest) := by
  rw [applyKeystream, h, andThen_next, if_neg herr]

/-- A refused XOR is refused again, whatever its byte, and changes nothing more. -/
theorem Effect.refused_again {b : Byte} {s t : State} (h : Effect (.xor b) s t) (herr : t.err ≠ .ok) (c : Byte) :
    Effect (.xor c) t t := by
  cases h with
  | xorInvalid _ hv => exact .xorInvalid (s := s.setErr .notInitialized) c hv
  | xorExhausted _ hv hc he => exact .xorExhausted (s := s.setErr .counterExhausted) c hv hc he
  | xorNewBlock | xorInBlock => exact absurd rfl herr

/-- While the reset input is asserted a write of a register is ignored (70_reset_and_hazards.md R133). -/
theorem access_write_of_inReset {s : State} (hz : s.inReset = true) (r : Reg) (v : Word) :
    access (wr s.base r v) s = .next (s.respond .writeDone) := by
  obtain ⟨hlt, h4⟩ := r.offset_legal
  rw [wr, access_write_offset s v hlt h4, write32, if_pos hz]

/-- The same of the write of CMD, also where it is ignored because the reset input is asserted. -/
theorem access_xor_refused_again {b : Byte} {s t : State} (h : access (wrCmd s.base (.xor b)) s = .next t)
    (herr : t.err ≠ .ok) (c : Byte) : access (wrCmd t.base (.xor c)) t = .next t := by
  obtain ⟨-, hreset, -⟩ := access_keeps h
  cases hz : s.inReset with
  | true =>
    obtain rfl : s.respond .writeDone = t := Host.Outcome.next.inj ((access_write_of_inReset hz .cmd _).symm.trans h)
    exact access_write_of_inReset (s := s.respond .writeDone) hz .cmd _
  | false =>
    rw [access_wrCmd hz] at h
    rw [access_wrCmd (hreset.trans hz)]
    have hresponse : t.respond .writeDone = t := by
      rw [State.respond, ← show t.response = some .writeDone from (exec_sameOutside h).response]
    rw [hresponse]
    exact exec_of_effect ((exec_iff.1 h).refused_again herr c)

/-- After a refusal the loop does nothing but leave the bytes as they are. -/
theorem applyKeystream_of_refused {b : Byte} {s t : State} (h : access (wrCmd s.base (.xor b)) s = .next t)
    (herr : t.err ≠ .ok) (bytes : List Byte) : applyKeystream bytes t = .next (t, bytes) := by
  cases bytes with
  | nil => rfl
  | cons c rest => exact applyKeystream_cons_of_refused (access_xor_refused_again h herr c) herr rest

/-! ### Chunks -/

/-- The loop over two buffers in turn (42_stream_xor.md R108). -/
theorem applyKeystream_append (xs ys : List Byte) (s : State) :
    applyKeystream (xs ++ ys) s =
      andThen (applyKeystream xs s) fun r => andThen (applyKeystream ys r.1) fun q => .next (q.1, r.2 ++ q.2) := by
  induction xs generalizing s with
  | nil =>
    rw [List.nil_append, applyKeystream, andThen_next]
    cases applyKeystream ys s <;> rfl
  | cons b xs ih =>
    obtain ⟨t, ht⟩ := access_next (wrCmd s.base (.xor b)) s
    by_cases herr : t.err = .ok
    · rw [List.cons_append, applyKeystream, applyKeystream, ht, andThen_next, andThen_next, if_pos herr, if_pos herr]
      simp only [ih, andThen_assoc, andThen_next, List.cons_append]
    · rw [List.cons_append, applyKeystream_cons_of_refused ht herr, applyKeystream_cons_of_refused ht herr,
        andThen_next, applyKeystream_of_refused ht herr, andThen_next, List.cons_append]

/-- Settles O46: the loop over a list of chunks is the loop over each chunk after the other. -/
theorem chunkingInvariance : Obligations.ChunkingInvariance := by
  intro chunks
  induction chunks with
  | nil => exact fun s => rfl
  | cons chunk chunks ih =>
    intro s
    rw [applyChunks, List.flatten_cons, applyKeystream_append]
    simp only [ih]

/-! ### Two cores with the same stream -/

/-- The two cores hold the same cipher state, as far as the keystream depends on it, and the same place in it. -/
structure SameStream (s s' : State) : Prop where
  ws : s'.ws = s.ws
  ks : s'.ks = s.ks
  cursor : s'.cursor = s.cursor
  blkcnt : s'.blkcnt = s.blkcnt
  valid : s'.valid = s.valid
  exh : s'.exh = s.exh
  inReset : s'.inReset = s.inReset

theorem SameStream.generation {s s' u : State} (h : SameStream s s') (hg : Generation s u) :
    ∃ u', Generation s' u' ∧ SameStream u u' := by
  obtain ⟨hws, hks, hcursor, hblkcnt, hvalid, hexh, hreset⟩ := h
  have hblock : block s'.ws = block s.ws := congrArg block hws
  cases hg with
  | advance he hmore =>
    have hadvance : (s'.writeBlock (block s'.ws)).advance.ws = (s.writeBlock (block s.ws)).advance.ws :=
      congrArg advanceWords hws
    have hsucc : s'.blkcnt + 1#64 = s.blkcnt + 1#64 := congrArg (· + 1#64) hblkcnt
    exact ⟨_, .advance (hexh.trans he) (hblkcnt ▸ hmore), ⟨hadvance, hblock, hcursor, hsucc, hvalid, hexh, hreset⟩⟩
  | exhaust he hlast =>
    have hset : (s'.writeBlock (block s'.ws)).exhaust.exh = (s.writeBlock (block s.ws)).exhaust.exh :=
      (State.exhaust_exh _).trans (State.exhaust_exh _).symm
    exact ⟨_, .exhaust (hexh.trans he) (hblkcnt.trans hlast), ⟨hws, hblock, hcursor, hblkcnt, hvalid, hset, hreset⟩⟩

theorem SameStream.consume {s s' : State} (h : SameStream s s') (d d' : Byte) (p : Fin 64) (e : ErrCode) :
    SameStream ((s.consume d p).setErr e) ((s'.consume d' p).setErr e) :=
  ⟨h.ws, h.ks, rfl, h.blkcnt, h.valid, h.exh, h.inReset⟩

theorem SameStream.setErr {s s' : State} (h : SameStream s s') (e : ErrCode) :
    SameStream (s.setErr e) (s'.setErr e) :=
  ⟨h.ws, h.ks, h.cursor, h.blkcnt, h.valid, h.exh, h.inReset⟩

theorem SameStream.respond {s s' : State} (h : SameStream s s') (r r' : BusResponse) :
    SameStream (s.respond r) (s'.respond r') :=
  ⟨h.ws, h.ks, h.cursor, h.blkcnt, h.valid, h.exh, h.inReset⟩

/-- XOR does the same to the two cores, and uses the same keystream byte in both. -/
theorem SameStream.xor {s s' t : State} {d : Byte} (h : SameStream s s') (ht : exec (.xor d) s = .next t) (d' : Byte) :
    ∃ t', exec (.xor d') s' = .next t' ∧ SameStream t t' ∧ t'.err = t.err ∧
      (t.err = .ok → t'.dout ^^^ d' = t.dout ^^^ d) := by
  have hbyte {ks ks' : Vector Word 16} (hks : ks' = ks) (p : Fin 64) :
      d' ^^^ ksByte ks' p ^^^ d' = d ^^^ ksByte ks p ^^^ d := by
    rw [hks, BitVec.xor_comm d', BitVec.xor_comm d, BitVec.xor_assoc, BitVec.xor_assoc, BitVec.xor_self,
      BitVec.xor_self]
  cases exec_iff.1 ht with
  | xorInvalid _ hv =>
    exact ⟨_, exec_of_effect (.xorInvalid d' (h.valid.trans hv)), h.setErr _, rfl, fun he => ErrCode.noConfusion he⟩
  | xorExhausted _ hv hc he =>
    exact ⟨_, exec_of_effect (.xorExhausted d' (h.valid.trans hv) ((congrArg Fin.val h.cursor).trans hc)
      (h.exh.trans he)), h.setErr _, rfl, fun he => ErrCode.noConfusion he⟩
  | xorNewBlock _ hv hc hg =>
    obtain ⟨u', hg', hu⟩ := h.generation hg
    exact ⟨_, exec_of_effect (.xorNewBlock d' (h.valid.trans hv) ((congrArg Fin.val h.cursor).trans hc) hg'),
      hu.consume d d' 0 .ok, rfl, fun _ => hbyte hu.ks 0⟩
  | xorInBlock _ hv p hp =>
    exact ⟨_, exec_of_effect (.xorInBlock d' (h.valid.trans hv) p ((congrArg Fin.val h.cursor).trans hp)),
      h.consume d d' p .ok, rfl, fun _ => hbyte h.ks p⟩

/-- One turn of the loop that is not refused: the byte stored is `DOUT` (42_stream_xor.md R106). -/
theorem applyKeystream_cons_of_ok {b : Byte} {s t : State} (hz : s.inReset = false)
    (h : exec (.xor b) (s.respond .writeDone) = .next t) (hok : t.err = .ok) (rest : List Byte) :
    applyKeystream (b :: rest) s =
      andThen (applyKeystream rest (t.respond (.readData (zext32 t.dout)))) fun r => .next (r.1, t.dout :: r.2) := by
  have hread : access (rd t.base .dout) t = .next (t.respond (.readData (zext32 t.dout))) :=
    access_read_reg t .dout ((exec_sameOutside h).inReset.trans hz)
  have hstored : (t.respond (.readData (zext32 t.dout))).lastReadByte b = t.dout := byteOf_zext32 t.dout
  rw [applyKeystream, access_wrCmd hz, h, andThen_next, if_pos hok, hread, andThen_next, hstored]

/-- What the loop makes of a buffer on one core, the loop on a core with the same stream turns back. -/
theorem SameStream.applyKeystream {s s' : State} (h : SameStream s s') (hz : s.inReset = false) (m : List Byte) :
    ∃ t out t', Machine.applyKeystream m s = .next (t, out) ∧ Machine.applyKeystream out s' = .next (t', m) := by
  induction m generalizing s s' with
  | nil => exact ⟨s, [], s', rfl, rfl⟩
  | cons b m ih =>
    have hz' : s'.inReset = false := h.inReset.trans hz
    obtain ⟨t, ht⟩ := exec_next (.xor b) (s.respond .writeDone)
    have hxor := (h.respond .writeDone .writeDone).xor ht
    by_cases hok : t.err = .ok
    · obtain ⟨t', ht', hsame, herr, hbyte⟩ := hxor t.dout
      have hback : t'.dout = b := by
        have hd := hbyte hok
        rw [BitVec.xor_comm t.dout] at hd
        exact (BitVec.xor_left_inj _).1 hd
      have hnext := hsame.respond (.readData (zext32 t.dout)) (.readData (zext32 t'.dout))
      obtain ⟨u, out, u', hu, hu'⟩ := ih hnext ((exec_sameOutside ht).inReset.trans hz)
      refine ⟨u, t.dout :: out, u', ?_, ?_⟩
      · rw [applyKeystream_cons_of_ok hz ht hok, hu, andThen_next]
      · rw [applyKeystream_cons_of_ok hz' ht' (herr.trans hok), hu', andThen_next, hback]
    · obtain ⟨t', ht', -, herr, -⟩ := hxor b
      refine ⟨t, b :: m, t', ?_, ?_⟩
      · exact applyKeystream_cons_of_refused ((access_wrCmd hz _).trans ht) hok m
      · exact applyKeystream_cons_of_refused ((access_wrCmd hz' _).trans ht') (fun he => hok (herr.symm.trans he)) m

/-- Settles O47: two INITs over the same key, nonce and counter build the same stream. -/
theorem applyIsSelfInverse : Obligations.ApplyIsSelfInverse := by
  intro s s' a a' m hkey hnonce hctr hz hz' h hok h' hok'
  obtain ⟨-, rfl⟩ := exec_init_ok h hok
  obtain ⟨-, rfl⟩ := exec_init_ok h' hok'
  have hws : workingState s'.pkey s'.pnonce s'.pctr = workingState s.pkey s.pnonce s.pctr := by
    rw [hkey, hnonce, hctr]
  have hsame : SameStream (s.buildCipher.setErr .ok) (s'.buildCipher.setErr .ok) :=
    ⟨hws, rfl, rfl, hctr.symm, rfl, rfl, hz'.trans hz.symm⟩
  exact hsame.applyKeystream hz m

end Sys2Proof.Machine
